-- ==== Sys2Proof/Word.lean ====
section
/-! DEFINITION. The two word widths of LNK (00_scope.md R9): every value is unsigned. -/

namespace Sys2Proof

/-- A `u8`, an unsigned 8-bit value (R9). -/
abbrev Byte := BitVec 8

/-- A `u16`, an unsigned 16-bit value (R9). -/
abbrev U16 := BitVec 16

end Sys2Proof
end

