-- ==== Sys2Proof/Config.lean ====
section
/-! DEFINITION. The constants the source fixes (00_scope.md R7) and the parameters the spec leaves OPEN (R8).
An OPEN parameter is an opaque constant: nothing can prove which value it has. -/

namespace Sys2Proof.Config

/-- `HDR1` (R7). -/
def hdr1 : Byte := 0x5A
/-- `HDR2` (R7). -/
def hdr2 : Byte := 0xA5
/-- `OPC_WRITE` (R7, R76). -/
def opcWrite : Byte := 0x82
/-- `OPC_READ` (R7, R76). -/
def opcRead : Byte := 0x83
/-- `CRC_POLY`, reflected (R7). -/
def crcPoly : U16 := 0xA001
/-- `CRC_INIT` (R7). -/
def crcInit : U16 := 0xFFFF
/-- `MIN_LEN` (R7, R78). -/
abbrev minLen : Nat := 5
/-- `MAX_READ_WORDS` (R7, R132). -/
abbrev maxReadWords : Nat := 128
/-- `WRITE_OVERHEAD`: opcode (1), address (2) and checksum (2) (R7, R72). -/
abbrev writeOverhead : Nat := 5
/-- `MAX_WRITE_DATA`, 255 − 5 (R8, D12). -/
abbrev maxWriteData : Nat := 250

/-- The least value that `MAX_OPERAND_BYTES` may have (R8): one whole frame fits. -/
abbrev minOperandBytes : Nat := 258
/-- The largest value that `MAX_OPERAND_BYTES` may have (R8): the 16-bit length prefix. -/
abbrev maxOperandPrefix : Nat := 65535

/-- How far the OPEN parameter `MAX_OPERAND_BYTES` lies above its least value 258 (R8, D24). DESIGN CHOICE (log 4):
uninterpreted, so every claim holds for each of its 65278 values. Safe. -/
opaque operandSlack : Fin 65278

/-- `MAX_OPERAND_BYTES`, OPEN, 258 to 65535 (R8, R81, D24). -/
def maxOperandBytes : Nat := minOperandBytes + operandSlack.val

/-- `FLUSH_TX_ON_READ_SEND`, OPEN (R8, R133, D14). DESIGN CHOICE (log 5): uninterpreted. Safe. -/
opaque flushTxOnReadSend : Bool

/-- `TICK_DURATION`, OPEN (R8, D5): the physical length of one tick in some unit of time. No rule reads it and no
definition of this model does. DESIGN CHOICE (log 6): uninterpreted. Safe. -/
opaque tickDuration : PNat

end Sys2Proof.Config
end

