-- ==== Sys2Proof/Machine/Operands.lean ====
section
/-! DEFINITION. Operand forms and byte order (00_scope.md R9, R10; 20_memory.md R54, R55; 30_encoding.md R81, R82). -/

namespace Sys2Proof.Machine

/-- `v[15:8]` (R9). -/
def hiByte (v : U16) : Byte := v.extractLsb' 8 8

/-- `v[7:0]` (R9). -/
def loByte (v : U16) : Byte := v.extractLsb' 0 8

/-- `(hi << 8) | lo` (R82): how every u16 operand is put together. -/
def u16Of (hi lo : Byte) : U16 := (hi.setWidth 16 <<< 8) ||| lo.setWidth 16

/-- `LE16(v)`: low byte first (R10), the order of the checksum on the wire (R55). -/
def le16 (v : U16) : List Byte := [loByte v, hiByte v]

/-- `BE16(v)`: high byte first (R10), the order of the address on the wire (R54) and of record operands (R81). -/
def be16 (v : U16) : List Byte := [hiByte v, loByte v]

/-- The half-open slice `s[a, b)` (R10). -/
def slice (s : List Byte) (a b : Nat) : List Byte := (s.drop a).take (b - a)

/-- Whether a byte-sequence operand is longer than `MAX_OPERAND_BYTES` (R81, D24). The first test is implied by the
second, since the parameter is at least 258 (R8): it lets a short operand be judged without the parameter's value. -/
def overLong (d : List Byte) : Bool :=
  decide (Config.minOperandBytes < d.length) && decide (Config.maxOperandBytes < d.length)

end Sys2Proof.Machine
end

