-- ==== Sys2Proof/Syntax.lean ====
section
/-! DEFINITION. The instructions of LNK: one constructor for each row of spec/opcode_table.json. -/

namespace Sys2Proof

/-- The eight commands of the command port (30_encoding.md R80, R81) and the two wire frames (R74, R75). -/
inductive Instr where
  /-- `CRC d` (40_checksum.md R104). -/
  | crc (d : List Byte)
  /-- `CRC_APPEND d` (R105). -/
  | crcAppend (d : List Byte)
  /-- `CRC_VERIFY d, c` (R106), operands in the order of the record: the checksum first. -/
  | crcVerify (c : U16) (d : List Byte)
  /-- `CRC_VERIFY_BUF d, b` (R107), operands in the order of the record: the checksum buffer first. -/
  | crcVerifyBuf (b : List Byte) (d : List Byte)
  /-- `BUILD_WRITE a, d` (41_frame_encoder.md R131). -/
  | buildWrite (a : U16) (d : List Byte)
  /-- `BUILD_READ a, w` (R132). -/
  | buildRead (a : U16) (w : Byte)
  /-- `SEND d` (R133). -/
  | send (d : List Byte)
  /-- `RECEIVE T, R` (42_frame_receiver.md R160). -/
  | receive (t : U16) (r : Byte)
  /-- `FRAME_WRITE` (30_encoding.md R74): a frame of opcode 0x82 on the wire, with its length byte, its address, its
  data and its checksum field as they stand there. The length byte and the checksum are fields because the receiver
  meets frames in which they are wrong (R79, R169); `Instr.wellFormed` says when they are right. -/
  | frameWrite (len : Byte) (addr : U16) (data : List Byte) (chk : U16)
  /-- `FRAME_READ` (R75): a read-command frame on the wire; its length byte is always 6. `bc` is the byte count. -/
  | frameRead (addr : U16) (bc : Byte) (chk : U16)
deriving DecidableEq, Repr

/-- Whether the row has the format WIRE (R81): bytes on the channel, not a record on the command port. -/
def Instr.isFrame : Instr → Bool
  | .crc _ => false
  | .crcAppend _ => false
  | .crcVerify _ _ => false
  | .crcVerifyBuf _ _ => false
  | .buildWrite _ _ => false
  | .buildRead _ _ => false
  | .send _ => false
  | .receive _ _ => false
  | .frameWrite _ _ _ _ => true
  | .frameRead _ _ _ => true

end Sys2Proof
end

