-- ==== Sys2Proof/WellFormed.lean ====
section
/-! DEFINITION. Which instructions an encoding can carry (`encodable`), and which of them are as the spec's layouts say
(`wellFormed`). -/

namespace Sys2Proof

/-- A byte-sequence operand fits its 16-bit length prefix (30_encoding.md R81). -/
def seqFits (d : List Byte) : Bool := decide (d.length < 65536)

/-- The checksum range of a write frame, `F[3, N−2)` (R73, R74): opcode, address, data. -/
def writeBody (addr : U16) (data : List Byte) : List Byte := Config.opcWrite :: (Machine.be16 addr ++ data)

/-- The checksum range of a read frame (R73, R75): opcode, address, byte count. -/
def readBody (addr : U16) (bc : Byte) : List Byte := Config.opcRead :: (Machine.be16 addr ++ [bc])

/-- How many payload bytes a length byte announces (R72: `L = len(payload) + 5`); for the illegal lengths 0 to 4
(R79) none. -/
def payloadLen (len : Byte) : Nat := len.toNat - Config.writeOverhead

/-- What the encodings can express: a sequence operand has at most 65535 bytes (R81), and a write frame has the
payload its length byte announces (R72). Nothing else about an operand is limited. -/
def Instr.encodable : Instr → Bool
  | .crc d => seqFits d
  | .crcAppend d => seqFits d
  | .crcVerify _ d => seqFits d
  | .crcVerifyBuf b d => seqFits b && seqFits d
  | .buildWrite _ d => seqFits d
  | .buildRead _ _ => true
  | .send d => seqFits d
  | .receive _ _ => true
  | .frameWrite len _ data _ => decide (data.length = payloadLen len)
  | .frameRead _ _ _ => true

/-- Encodable, and for the wire frames as R74 and R75 lay them out: the length byte is `n + 5` (R72; so it is 5 or more,
R78), the byte count is an even number (R75), the checksum field is the checksum of the checksum range (R73). -/
def Instr.wellFormed : Instr → Bool
  | .crc d => seqFits d
  | .crcAppend d => seqFits d
  | .crcVerify _ d => seqFits d
  | .crcVerifyBuf b d => seqFits b && seqFits d
  | .buildWrite _ d => seqFits d
  | .buildRead _ _ => true
  | .send d => seqFits d
  | .receive _ _ => true
  | .frameWrite len addr data chk =>
    decide (len.toNat = data.length + Config.writeOverhead) && decide (chk = Machine.crc (writeBody addr data))
  | .frameRead addr bc chk => decide (bc.toNat % 2 = 0) && decide (chk = Machine.crc (readBody addr bc))

end Sys2Proof
end

