-- ==== Sys2Proof/Decode.lean ====
section
/-! DEFINITION. Reading an instruction from bytes, and writing one as bytes: the command record (30_encoding.md R80 to
R83) and the wire frame (R70 to R79). -/

namespace Sys2Proof

/-- Why bytes are no instruction. -/
inductive DecodeError where
  /-- There is no byte at all. -/
  | empty
  /-- Byte 0 is none of the eight command codes of R80: an illegal code (R83). -/
  | illegalCode (c : Byte)
  /-- The bytes end before the layout does (R81 for a record, R70 for a frame). -/
  | truncated
  /-- Bytes stand after the end of the record or frame. -/
  | trailing (n : Nat)
  /-- The bytes do not begin with `5A A5` (R70): no frame. -/
  | noHeader
  /-- A frame with an opcode other than 0x82 and 0x83: LNK gives it no meaning (R76). -/
  | unknownOpcode (op : Byte)
  /-- A frame of opcode 0x83 whose length byte is not the 6 of a read command (R75), such as a read reply (R77). -/
  | notReadCommand (len : Byte)
deriving DecidableEq, Repr

/-- What a decoder answers for the front of a byte sequence: an instruction and the bytes after it, or a rejection. -/
abbrev Decoded := Except DecodeError (Instr × List Byte)

/-- `CRC` (R80). -/
def codeCrc : Byte := 0x01
/-- `CRC_APPEND` (R80). -/
def codeCrcAppend : Byte := 0x02
/-- `CRC_VERIFY` (R80). -/
def codeCrcVerify : Byte := 0x03
/-- `CRC_VERIFY_BUF` (R80). -/
def codeCrcVerifyBuf : Byte := 0x04
/-- `BUILD_WRITE` (R80). -/
def codeBuildWrite : Byte := 0x10
/-- `BUILD_READ` (R80). -/
def codeBuildRead : Byte := 0x11
/-- `SEND` (R80). -/
def codeSend : Byte := 0x12
/-- `RECEIVE` (R80). -/
def codeReceive : Byte := 0x20

/-- The legal command codes (R80); the other 248 are illegal (R83). -/
def legalCodes : List Byte :=
  [codeCrc, codeCrcAppend, codeCrcVerify, codeCrcVerifyBuf, codeBuildWrite, codeBuildRead, codeSend, codeReceive]

/-- The length byte of every read-command frame (R75). -/
def readFrameLen : Byte := 0x06

/-- The first `n` bytes and the rest, if there are that many. -/
def splitBytes : Nat → List Byte → Option (List Byte × List Byte)
  | 0, bs => some ([], bs)
  | _ + 1, [] => none
  | n + 1, b :: bs => (splitBytes n bs).map fun p => (b :: p.1, p.2)

/-- Read a `u8` operand (R81). -/
def withByte (bs : List Byte) (k : Byte → List Byte → Decoded) : Decoded :=
  match bs with
  | b :: r => k b r
  | [] => .error .truncated

/-- Read a u16 operand, high byte first (R81, R82). -/
def withU16 (bs : List Byte) (k : U16 → List Byte → Decoded) : Decoded :=
  match bs with
  | hi :: lo :: r => k (Machine.u16Of hi lo) r
  | _ => .error .truncated

/-- Read the checksum field of a frame, low byte first (R55). -/
def withU16Le (bs : List Byte) (k : U16 → List Byte → Decoded) : Decoded :=
  match bs with
  | lo :: hi :: r => k (Machine.u16Of hi lo) r
  | _ => .error .truncated

/-- Read `n` bytes. -/
def withBytes (n : Nat) (bs : List Byte) (k : List Byte → List Byte → Decoded) : Decoded :=
  match splitBytes n bs with
  | some p => k p.1 p.2
  | none => .error .truncated

/-- Read a byte-sequence operand: a 16-bit big-endian length, then that many bytes (R81). -/
def withSeq (bs : List Byte) (k : List Byte → List Byte → Decoded) : Decoded :=
  withU16 bs fun n r => withBytes n.toNat r k

/-- The operands of the command with code `c`, in the order of its record layout (R81). -/
def decodeOperands (c : Byte) (r : List Byte) : Decoded :=
  if c = codeCrc then withSeq r fun d r => .ok (.crc d, r)
  else if c = codeCrcAppend then withSeq r fun d r => .ok (.crcAppend d, r)
  else if c = codeCrcVerify then withU16 r fun x r => withSeq r fun d r => .ok (.crcVerify x d, r)
  else if c = codeCrcVerifyBuf then withSeq r fun b r => withSeq r fun d r => .ok (.crcVerifyBuf b d, r)
  else if c = codeBuildWrite then withU16 r fun a r => withSeq r fun d r => .ok (.buildWrite a d, r)
  else if c = codeBuildRead then withU16 r fun a r => withByte r fun w r => .ok (.buildRead a w, r)
  else if c = codeSend then withSeq r fun d r => .ok (.send d, r)
  else if c = codeReceive then withU16 r fun t r => withByte r fun n r => .ok (.receive t n, r)
  else .error (.illegalCode c)

/-- The command record at the front of the bytes (R80, R81). -/
def decodeRecordPrefix (bs : List Byte) : Decoded :=
  match bs with
  | [] => .error .empty
  | c :: r => decodeOperands c r

/-- What follows the opcode of a write frame with length byte `len` (R70, R74): address, payload, checksum. -/
def decodeWriteFrame (len : Byte) (r : List Byte) : Decoded :=
  withU16 r fun addr r => withBytes (payloadLen len) r fun data r => withU16Le r fun x r =>
    .ok (.frameWrite len addr data x, r)

/-- What follows the opcode of a read-command frame (R75): address, byte count, checksum. -/
def decodeReadFrame (len : Byte) (r : List Byte) : Decoded :=
  if len = readFrameLen then
    withU16 r fun addr r => withByte r fun bc r => withU16Le r fun x r => .ok (.frameRead addr bc x, r)
  else .error (.notReadCommand len)

/-- The wire frame at the front of the bytes (R70, R74, R75), told by its header and its opcode as the rows' match and
mask tell it. The checksum is read, not judged (R169), and so is a length byte below 5 (R79): `Instr.wellFormed`
judges both. DESIGN CHOICE (log 9): a write frame with length byte 0 to 4 is read with an empty payload. -/
def decodeFramePrefix (bs : List Byte) : Decoded :=
  match bs with
  | h1 :: h2 :: len :: op :: r =>
    if h1 = Config.hdr1 ∧ h2 = Config.hdr2 then
      if op = Config.opcWrite then decodeWriteFrame len r
      else if op = Config.opcRead then decodeReadFrame len r
      else .error (.unknownOpcode op)
    else .error .noHeader
  | _ => .error .truncated

/-- The instruction at the front of the bytes. 0x5A is no command code (R80, R83), so the first byte tells a frame from
a record. -/
def decodePrefix (bs : List Byte) : Decoded :=
  match bs with
  | [] => .error .empty
  | b :: _ => if b = Config.hdr1 then decodeFramePrefix bs else decodeRecordPrefix bs

/-- The instruction that is the whole of the bytes. -/
def whole (x : Decoded) : Except DecodeError Instr :=
  match x with
  | .ok (i, []) => .ok i
  | .ok (_, b :: r) => .error (.trailing (b :: r).length)
  | .error e => .error e

/-- The command whose record is `bs` (R81: the port delivers whole records). -/
def decodeRecord (bs : List Byte) : Except DecodeError Instr := whole (decodeRecordPrefix bs)

/-- The wire frame that `bs` is. -/
def decodeFrame (bs : List Byte) : Except DecodeError Instr := whole (decodeFramePrefix bs)

/-- The instruction that `bs` is, of either kind. -/
def decode (bs : List Byte) : Except DecodeError Instr := whole (decodePrefix bs)

/-! ### The encoder -/

/-- A byte-sequence operand in a record: its length, then its bytes (R81). -/
def encodeSeq (d : List Byte) : List Byte := Machine.be16 (BitVec.ofNat 16 d.length) ++ d

/-- The bytes of an instruction: the record of a command (R81), the bytes of a frame (R74, R75). -/
def encode : Instr → List Byte
  | .crc d => codeCrc :: encodeSeq d
  | .crcAppend d => codeCrcAppend :: encodeSeq d
  | .crcVerify c d => codeCrcVerify :: (Machine.be16 c ++ encodeSeq d)
  | .crcVerifyBuf b d => codeCrcVerifyBuf :: (encodeSeq b ++ encodeSeq d)
  | .buildWrite a d => codeBuildWrite :: (Machine.be16 a ++ encodeSeq d)
  | .buildRead a w => codeBuildRead :: (Machine.be16 a ++ [w])
  | .send d => codeSend :: encodeSeq d
  | .receive t r => codeReceive :: (Machine.be16 t ++ [r])
  | .frameWrite len addr data chk =>
    Config.hdr1 :: Config.hdr2 :: len :: (writeBody addr data ++ Machine.le16 chk)
  | .frameRead addr bc chk =>
    Config.hdr1 :: Config.hdr2 :: readFrameLen :: (readBody addr bc ++ Machine.le16 chk)

/-! ### Words as spec/opcode_table.json numbers their bits -/

/-- The longest encoding: a CRC_VERIFY_BUF record with two sequences of 65535 bytes (R81). -/
def maxInstrBytes : Nat := 1 + 2 * (2 + Config.maxOperandPrefix)

/-- The `k`-th byte of `w`, byte 0 the least significant. -/
def byteAt (w k : Nat) : Byte := BitVec.ofNat 8 (w >>> (8 * k))

/-- The bytes of a table word, first byte first. A command's row numbers the record's byte 0 as bits 7..0 and later
bytes upwards; a WIRE row is the frame's bytes 0 to 3 read as one BIG-ENDIAN 32-bit word (R81), so there byte 0 is
bits 31..24. DEDUCED (log 10). -/
def tableBytes (nbits w : Nat) : List Byte :=
  if nbits = 32 then [byteAt w 3, byteAt w 2, byteAt w 1, byteAt w 0]
  else (List.range ((nbits + 7) / 8)).map (byteAt w)

/-- The instruction at the front of a table word's bytes, every later bit zero. -/
def decodeTablePrefix (nbits w : Nat) : Decoded :=
  decodePrefix (tableBytes nbits w ++ List.replicate maxInstrBytes 0)

/-- The instruction the decoder reads from a word of spec/opcode_table.json. -/
def decodeTableWord (nbits w : Nat) : Option Instr :=
  match decodeTablePrefix nbits w with
  | .ok p => some p.1
  | .error _ => none

end Sys2Proof
end

