-- ==== Sys2Proof/Machine/State.lean ====
section
/-! DEFINITION. The state of LNK (10_state.md R20 to R40) as plain data, the reasons a step can stop, and reset. -/

namespace Sys2Proof.Machine

/-- The receiver states that FR_STATE can hold (10_state.md R29). Codes 6 and 7 are never held (U14), so they have no
name here; `FrState.code` is the 3-bit value the HOST reads. DESIGN CHOICE (log 12), safe. -/
inductive FrState where
  /-- 0: no RECEIVE has run since reset. -/
  | idle
  /-- 1 -/
  | searchingHeader
  /-- 2 -/
  | headerFoundAwaitingLength
  /-- 3 -/
  | accumulatingBody
  /-- 4: the last RECEIVE returned a frame. -/
  | complete
  /-- 5: the last RECEIVE ended with Timeout. -/
  | failed
deriving DecidableEq, Repr

/-- The 3-bit code of a receiver state (R29). -/
def FrState.code : FrState → BitVec 3
  | .idle => 0
  | .searchingHeader => 1
  | .headerFoundAwaitingLength => 2
  | .accumulatingBody => 3
  | .complete => 4
  | .failed => 5

/-- The result kinds of STATUS.ERR (30_encoding.md R84). The last four are reserved: LNK never raises them. -/
inductive ErrKind where
  | ok
  | invalidArgument
  | outOfRange
  | timeout
  | checksumMismatch
  | malformed
  | unknownCommand
  | writeNotAcknowledged
deriving DecidableEq, Repr

/-- The 4-bit value of a result kind (R84). -/
def ErrKind.code : ErrKind → BitVec 4
  | .ok => 0x0
  | .invalidArgument => 0x1
  | .outOfRange => 0x2
  | .timeout => 0x3
  | .checksumMismatch => 0x4
  | .malformed => 0x5
  | .unknownCommand => 0x6
  | .writeNotAcknowledged => 0x7

/-- The acknowledgement of an issue step (10_state.md R23). The value 3 is never returned (U13) and has no name. -/
inductive Ack where
  | accepted
  | rejectedBusy
  | rejectedIllegal
deriving DecidableEq, Repr

/-- The 2-bit value of an acknowledgement (R23). -/
def Ack.code : Ack → BitVec 2
  | .accepted => 0
  | .rejectedBusy => 1
  | .rejectedIllegal => 2

/-- One step of one agent (00_scope.md R12), or an assertion of reset (70_reset_and_hazards.md R230). -/
inductive Event where
  /-- HOST issues the record with these bytes on the command port (R23, R81). -/
  | issue (record : List Byte)
  /-- PEER appends these bytes to RXQ (R37). -/
  | peer (bytes : List Byte)
  /-- WIRE takes the head byte of TXQ (R38). -/
  | wire
  /-- TICK advances the timebase by one tick (R163, R168). -/
  | tick
  /-- Reset is asserted (R230, R231). -/
  | reset
deriving DecidableEq, Repr

/-- Why the machine stops with a fault. LNK itself has no traps (60_exceptions.md R200). -/
inductive Fault where
  /-- Raised by `step` when the bytes on the command port begin with a legal command code but are not one whole record,
  or when there are none. The spec says it cannot happen: "The command port delivers whole records only, so a record
  cannot be truncated" (30_encoding.md R81). Safe: the machine stops where the spec's machine never is (log 7). -/
  | notWholeRecord
deriving DecidableEq, Repr

/-- Why an instruction has no meaning in the model. -/
inductive Refusal where
  /-- Raised by an arm of `exec` whose instruction has no meaning yet; no arm of this model does. Safe. -/
  | notModelled (mnemonic : String)
deriving DecidableEq, Repr

/-- The state of LNK and of its channel. Every field is named in INVENTORY.md with its rule. -/
structure State where
  /-- `STATUS` (R24). -/
  status : U16
  /-- `CUR` (R25). -/
  cur : Byte
  /-- `RES_U16` (R26). -/
  resU16 : U16
  /-- `RES_BOOL` (R26). -/
  resBool : BitVec 1
  /-- `RES_DATA` (R26). -/
  resData : List Byte
  /-- `RES_ATTEMPTS` (R26). -/
  resAttempts : U16
  /-- `FR_STATE` (R29). -/
  frState : FrState
  /-- `FR_BUF` (R30). -/
  frBuf : List Byte
  /-- `FR_SCAN` (R31). -/
  frScan : Nat
  /-- `FR_OFF` (R32). -/
  frOff : Nat
  /-- `FR_LEN` (R33). -/
  frLen : Byte
  /-- `FR_ELAPSED` (R34). -/
  frElapsed : U16
  /-- `FR_ATTEMPT` (R35). -/
  frAttempt : U16
  /-- `FR_TIMEOUT` (R36). -/
  frTimeout : U16
  /-- `FR_MAXRETRY` (R36). -/
  frMaxRetry : Byte
  /-- `RXQ` (R37), head first. -/
  rxq : List Byte
  /-- `TXQ` (R38), head first. -/
  txq : List Byte
  /-- `TXLOG` (R39), the first byte sent first. An observation, not hardware state. -/
  txlog : List Byte
  /-- The model's own field (log 2): the ACK of the last issue step, which R23 gives to the HOST and says is no register. -/
  ack : Option Ack
  /-- The model's own field (log 1): the steps the agents will take, in order (R12, U7). -/
  inputs : List Event
deriving DecidableEq, Repr

/-- LNK right after its first reset with the launch contents `RXQ0` and `TXQ0` in the channel (R40, R8) and these agent
steps to come. -/
def State.launch (rxq0 txq0 : List Byte) (inputs : List Event) : State where
  status := 0x0000
  cur := 0x00
  resU16 := 0x0000
  resBool := 0
  resData := []
  resAttempts := 0x0000
  frState := .idle
  frBuf := []
  frScan := 0
  frOff := 0
  frLen := 0
  frElapsed := 0
  frAttempt := 0
  frTimeout := 0
  frMaxRetry := 0
  rxq := rxq0
  txq := txq0
  txlog := []
  ack := none
  inputs := inputs

/-- The machine right after reset (R40, R230), with an empty channel (DESIGN CHOICE, log 3: the launch contents are OPEN
parameters) and no agent step to come (DESIGN CHOICE, log 1). -/
def State.reset : State := State.launch [] [] []

end Sys2Proof.Machine
end

