-- ==== Sys2Proof/Machine/Flags.lean ====
section
/-! DEFINITION. The fields of STATUS (10_state.md R24) and the two updates of it (R27, R28). -/

namespace Sys2Proof.Machine

/-- `STATUS.ERR`, bits 3:0. -/
def statusErr (st : U16) : BitVec 4 := st.extractLsb' 0 4

/-- `STATUS.BUSY`, bit 4. -/
def statusBusy (st : U16) : Bool := st.getLsbD 4

/-- `STATUS.DONE`, bit 5. -/
def statusDone (st : U16) : Bool := st.getLsbD 5

/-- The reserved bits 15:6. -/
def statusReserved (st : U16) : BitVec 10 := st.extractLsb' 6 10

/-- Write ERR and nothing else. -/
def setErr (e : BitVec 4) (st : U16) : U16 := (st &&& 0xFFF0) ||| e.setWidth 16

/-- Write BUSY and nothing else. -/
def setBusy (b : Bool) (st : U16) : U16 := (st &&& 0xFFEF) ||| (if b then 0x0010 else 0x0000)

/-- Write DONE and nothing else. -/
def setDone (b : Bool) (st : U16) : U16 := (st &&& 0xFFDF) ||| (if b then 0x0020 else 0x0000)

/-- STATUS at the acceptance of a command: `DONE <- 0; ERR <- 0` (R27). -/
def statusAccepted (st : U16) : U16 := setErr 0 (setDone false st)

/-- STATUS after `finish(e)`: `ERR <- e; DONE <- 1; BUSY <- 0` (R28). -/
def statusFinished (e : ErrKind) (st : U16) : U16 := setBusy false (setDone true (setErr e.code st))

end Sys2Proof.Machine
end

