-- ==== Sys2Proof/Machine/Ops.lean ====
section
/-! DEFINITION. The shared operations: accepting, rejecting and finishing a command (10_state.md R27, R28), raising an error
(60_exceptions.md R201, which is what LNK has instead of an exception, R200), and the channel primitives (00_scope.md
R11). -/

namespace Sys2Proof.Machine

/-- `STATUS.BUSY == 1`. -/
def State.busy (s : State) : Bool := statusBusy s.status

/-- `STATUS.DONE == 1`. -/
def State.done (s : State) : Bool := statusDone s.status

/-- `STATUS.ERR`. -/
def State.err (s : State) : BitVec 4 := statusErr s.status

/-- `finish(e)` (R28). -/
def State.finish (e : ErrKind) (s : State) : State := { s with status := statusFinished e s.status }

/-- `raise K(info)` (R201): it ends the command with the error's code, and the info is not recorded. -/
def State.raise (k : ErrKind) (s : State) : State := s.finish k

/-- The HOST sees this acknowledgement (R23). -/
def State.withAck (a : Ack) (s : State) : State := { s with ack := some a }

/-- The writes of accepting the command with code `c` (R27). -/
def State.accept (c : Byte) (s : State) : State :=
  { s with
    ack := some .accepted, cur := c, status := statusAccepted s.status,
    resU16 := 0, resBool := 0, resData := [], resAttempts := 0 }

/-- What issuing the command with the legal code `c` does (R27): rejected while BUSY with no other write, else accepted
and its rule `run` executed. -/
def issue (c : Byte) (run : State → State) (s : State) : Host.Outcome State Fault Refusal :=
  if s.busy then .next (s.withAck .rejectedBusy) else .next (run (s.accept c))

/-- What issuing an illegal code does (R27, R83): the BUSY check comes first, and nothing is written either way. -/
def issueIllegal (s : State) : State :=
  if s.busy then s.withAck .rejectedBusy else s.withAck .rejectedIllegal

/-- The operand check that every command with byte-sequence operands makes first (R205): an operand longer than
`MAX_OPERAND_BYTES` raises InvalidArgument (R81, D24), else the rule goes on. -/
def checkOperands (ops : List (List Byte)) (run : State → State) (s : State) : State :=
  if ops.any overLong then s.raise .invalidArgument else run s

/-- `RxDrain()` (R11, R60): the bytes of RXQ in arrival order, and the state with RXQ empty. -/
def rxDrain (s : State) : List Byte × State := (s.rxq, { s with rxq := [] })

/-- `TxPut(d)` (R11, R60). -/
def txPut (d : List Byte) (s : State) : State := { s with txq := s.txq ++ d }

/-- `TxDiscard()` (R11, R60). -/
def txDiscard (s : State) : State := { s with txq := [] }

/-- A PEER step: the bytes join the tail of RXQ (R37). -/
def peerAppend (d : List Byte) (s : State) : State := { s with rxq := s.rxq ++ d }

/-- A WIRE step: the head byte of TXQ goes to TXLOG (R38, R39). With TXQ empty there is nothing to send: DEDUCED (log 13). -/
def wireStep (s : State) : State :=
  match s.txq with
  | [] => s
  | b :: r => { s with txq := r, txlog := s.txlog ++ [b] }

/-- Reset (R40, R230, R231): every LNK register takes its reset value; RXQ, TXQ and TXLOG keep theirs, and so do the
model's own two fields. -/
def warmReset (s : State) : State :=
  { State.reset with rxq := s.rxq, txq := s.txq, txlog := s.txlog, ack := s.ack, inputs := s.inputs }

end Sys2Proof.Machine
end

