-- ==== Sys2Proof/Machine/Checksum.lean ====
section
/-! DEFINITION. The commands of the checksum engine CE (40_checksum.md R104 to R107). -/

namespace Sys2Proof.Machine

/-- The rule of `CRC d` after acceptance (R104). -/
def runCrc (d : List Byte) (s : State) : State :=
  checkOperands [d] (fun s => ({ s with resU16 := crc d } : State).finish .ok) s

/-- The rule of `CRC_APPEND d` after acceptance (R105). -/
def runCrcAppend (d : List Byte) (s : State) : State :=
  checkOperands [d] (fun s => ({ s with resData := d ++ le16 (crc d) } : State).finish .ok) s

/-- The rule of `CRC_VERIFY d, c` after acceptance (R106): a mismatch is no error. -/
def runCrcVerify (c : U16) (d : List Byte) (s : State) : State :=
  checkOperands [d] (fun s => ({ s with resBool := BitVec.ofBool (decide (crc d = c)) } : State).finish .ok) s

/-- The comparison of `CRC_VERIFY_BUF` (R107): `b[0]` is the low byte (D15), and a buffer that is not exactly 2 bytes
long raises InvalidArgument. -/
def compareBuf (b d : List Byte) (s : State) : State :=
  match b with
  | [lo, hi] => ({ s with resBool := BitVec.ofBool (decide (crc d = u16Of hi lo)) } : State).finish .ok
  | _ => s.raise .invalidArgument

/-- The rule of `CRC_VERIFY_BUF d, b` after acceptance (R107); `b` is checked before `d` (R205). -/
def runCrcVerifyBuf (b d : List Byte) (s : State) : State := checkOperands [b, d] (compareBuf b d) s

/-- `CRC d` (R104). -/
def execCrc (d : List Byte) (s : State) : Host.Outcome State Fault Refusal := issue codeCrc (runCrc d) s

/-- `CRC_APPEND d` (R105). -/
def execCrcAppend (d : List Byte) (s : State) : Host.Outcome State Fault Refusal :=
  issue codeCrcAppend (runCrcAppend d) s

/-- `CRC_VERIFY d, c` (R106). -/
def execCrcVerify (c : U16) (d : List Byte) (s : State) : Host.Outcome State Fault Refusal :=
  issue codeCrcVerify (runCrcVerify c d) s

/-- `CRC_VERIFY_BUF d, b` (R107). -/
def execCrcVerifyBuf (b d : List Byte) (s : State) : Host.Outcome State Fault Refusal :=
  issue codeCrcVerifyBuf (runCrcVerifyBuf b d) s

end Sys2Proof.Machine
end

