-- ==== Sys2Proof/Machine/FrameEncoder.lean ====
section
/-! DEFINITION. The frame encoder FE (41_frame_encoder.md R130 to R135): the two build commands and SEND. -/

namespace Sys2Proof.Machine

/-- The frame around a checksum range `body` (30_encoding.md R70, R73): header, length byte, body, checksum. The length
byte counts the body and the two checksum bytes. -/
def frameOf (body : List Byte) : List Byte :=
  [Config.hdr1, Config.hdr2, BitVec.ofNat 8 (body.length + 2)] ++ body ++ le16 (crc body)

/-- The write-command frame (R74, R131). -/
def writeFrame (a : U16) (d : List Byte) : List Byte := frameOf (writeBody a d)

/-- The byte count of a read of `w` words: `(2 * w) mod 256` (R75, R132, D11). -/
def byteCount (w : Byte) : Byte := BitVec.ofNat 8 (2 * w.toNat)

/-- The read-command frame (R75, R132). -/
def readFrame (a : U16) (w : Byte) : List Byte := frameOf (readBody a (byteCount w))

/-- The rule of `BUILD_WRITE a, d` after acceptance (R131). -/
def runBuildWrite (a : U16) (d : List Byte) (s : State) : State :=
  checkOperands [d]
    (fun s =>
      if d.length > Config.maxWriteData then s.raise .outOfRange
      else ({ s with resData := writeFrame a d } : State).finish .ok)
    s

/-- The rule of `BUILD_READ a, w` after acceptance (R132). -/
def runBuildRead (a : U16) (w : Byte) (s : State) : State :=
  if w.toNat > Config.maxReadWords then s.raise .outOfRange
  else ({ s with resData := readFrame a w } : State).finish .ok

/-- The opcode of `d` where SEND takes it for a frame: four bytes or more, beginning `5A A5` (R133, D14). -/
def sentOpcode (d : List Byte) : Option Byte :=
  match d with
  | b0 :: b1 :: _ :: b3 :: _ => if b0 = Config.hdr1 ∧ b1 = Config.hdr2 then some b3 else none
  | _ => none

/-- Whether sending `d` discards the queued bytes first (R133): a write frame does; a read frame does when the OPEN
parameter `flush` says so; nothing else does. -/
def sendDiscards (flush : Bool) (d : List Byte) : Bool :=
  match sentOpcode d with
  | some op => op == Config.opcWrite || (op == Config.opcRead && flush)
  | none => false

/-- The effect of SEND on the channel (R133) for a value `flush` of `FLUSH_TX_ON_READ_SEND`. -/
def sendBytes (flush : Bool) (d : List Byte) (s : State) : State :=
  txPut d (if sendDiscards flush d then txDiscard s else s)

/-- The rule of `SEND d` after acceptance (R133). -/
def runSend (d : List Byte) (s : State) : State :=
  checkOperands [d] (fun s => (sendBytes Config.flushTxOnReadSend d s).finish .ok) s

/-- `BUILD_WRITE a, d` (R131). -/
def execBuildWrite (a : U16) (d : List Byte) (s : State) : Host.Outcome State Fault Refusal :=
  issue codeBuildWrite (runBuildWrite a d) s

/-- `BUILD_READ a, w` (R132). -/
def execBuildRead (a : U16) (w : Byte) (s : State) : Host.Outcome State Fault Refusal :=
  issue codeBuildRead (runBuildRead a w) s

/-- `SEND d` (R133). -/
def execSend (d : List Byte) (s : State) : Host.Outcome State Fault Refusal := issue codeSend (runSend d) s

end Sys2Proof.Machine
end

