-- ==== Sys2Proof/Machine/FrameReceiver.lean ====
section
/-! DEFINITION. The frame receiver FR (42_frame_receiver.md R160 to R173): RECEIVE, and the poll that a TICK runs. -/

namespace Sys2Proof.Machine

/-- The least index at which `5A A5` stands in the bytes. -/
def headerIndex : List Byte → Option Nat
  | a :: b :: r =>
    if a = Config.hdr1 ∧ b = Config.hdr2 then some 0 else (headerIndex (b :: r)).map (· + 1)
  | [_] => none
  | [] => none

/-- The least index `i ≥ scan` with `buf[i] == 0x5A` and `buf[i+1] == 0xA5` (R165, SEARCHING_HEADER). -/
def findHeader (buf : List Byte) (scan : Nat) : Option Nat := (headerIndex (buf.drop scan)).map (scan + ·)

/-- `StartAttempt()` (R162). RXQ is not touched. -/
def startAttempt (s : State) : State :=
  { s with frBuf := [], frScan := 0, frOff := 0, frLen := 0, frElapsed := 0, frState := .searchingHeader }

/-- `Drain()` (R164). -/
def drain (s : State) : State :=
  let (bytes, s') := rxDrain s
  { s' with frBuf := s'.frBuf ++ bytes }

/-- One turn of the loop of `Advance()`: it continues, or it returns. -/
inductive Turn where
  | again (s : State)
  | stop (s : State)
deriving DecidableEq, Repr

/-- SEARCHING_HEADER (R165): go to the header found, else keep one byte of overlap and return. -/
def turnSearching (s : State) : Turn :=
  match findHeader s.frBuf s.frScan with
  | some i => .again { s with frOff := i, frState := .headerFoundAwaitingLength }
  | none => .stop { s with frScan := if 1 ≤ s.frBuf.length then max s.frScan (s.frBuf.length - 1) else s.frScan }

/-- HEADER_FOUND_AWAITING_LENGTH (R165): read the length byte if it is there, abandon the header if it is below 5 and
search on from FR_OFF + 1 (D9). -/
def turnLength (s : State) : Turn :=
  match s.frBuf[s.frOff + 2]? with
  | some len =>
    if len.toNat < Config.minLen then .again { s with frScan := s.frOff + 1, frState := .searchingHeader }
    else .again { s with frLen := len, frState := .accumulatingBody }
  | none => .stop s

/-- The index after the last byte of the frame found: `FR_OFF + 3 + FR_LEN` (R165, R166). -/
def frameEnd (s : State) : Nat := s.frOff + 3 + s.frLen.toNat

/-- ACCUMULATING_BODY (R165): complete when the whole frame is there. -/
def turnBody (s : State) : Turn :=
  .stop (if frameEnd s ≤ s.frBuf.length then { s with frState := .complete } else s)

/-- One turn of the loop of `Advance()` (R165). The rule has no case for IDLE, COMPLETE and FAILED, in which no poll
starts in any run: DESIGN CHOICE (log 14), the loop returns. -/
def turn (s : State) : Turn :=
  match s.frState with
  | .searchingHeader => turnSearching s
  | .headerFoundAwaitingLength => turnLength s
  | .accumulatingBody => turnBody s
  | .idle => .stop s
  | .complete => .stop s
  | .failed => .stop s

/-- At most `n` turns. -/
def advanceLoop : Nat → State → State
  | 0, s => s
  | n + 1, s =>
    match turn s with
    | .again s' => advanceLoop n s'
    | .stop s' => s'

/-- `Advance()` (R165). The loop ends by itself within this many turns: two for each header in the buffer, and three. -/
def advance (s : State) : State := advanceLoop (2 * s.frBuf.length + 4) s

/-- `Complete()` (R166): the exact slice is returned, every other byte of FR_BUF is lost (D10). -/
def complete (s : State) : State :=
  ({ s with resData := slice s.frBuf s.frOff (frameEnd s), resAttempts := s.frAttempt, frBuf := [] } : State).finish .ok

/-- The attempt has used its T polls (R167). -/
def expired (s : State) : Bool := decide (s.frTimeout.toNat ≤ s.frElapsed.toNat)

/-- Another attempt is left: `FR_ATTEMPT < FR_MAXRETRY + 1` (R167). -/
def mayRetry (s : State) : Bool := decide (s.frAttempt.toNat < s.frMaxRetry.toNat + 1)

/-- The end of the last attempt (R167): Timeout, with the attempt count. -/
def fail (s : State) : State :=
  ({ s with resAttempts := s.frAttempt, frBuf := [], frState := .failed } : State).raise .timeout

/-- The next attempt (R167): the partial frame is discarded. -/
def retry (s : State) : State := startAttempt { s with frAttempt := s.frAttempt + 1 }

/-- What follows the count of a tick (R167). -/
def afterCount (s : State) : State :=
  if expired s then (if mayRetry s then retry s else fail s) else s

/-- `CountTime()` (R167). -/
def countTime (s : State) : State := afterCount { s with frElapsed := s.frElapsed + 1 }

/-- What follows the advance of a poll (R163): completion is tested before time is counted (D17). -/
def conclude (s : State) : State := if s.frState = .complete then complete s else countTime s

/-- `Poll()` (R163). -/
def poll (s : State) : State := conclude (advance (drain s))

/-- A TICK step (R163, R168): one poll while BUSY, else nothing. -/
def tick (s : State) : State := if s.busy then poll s else s

/-- The rule of `RECEIVE T, R` after acceptance (R161). Nothing is drained here. -/
def runReceive (t : U16) (r : Byte) (s : State) : State :=
  if t = 0 then s.raise .invalidArgument
  else
    let s1 := startAttempt { s with frTimeout := t, frMaxRetry := r, frAttempt := 1 }
    { s1 with status := setBusy true s1.status }

/-- `RECEIVE T, R` (R160, R161). -/
def execReceive (t : U16) (r : Byte) (s : State) : Host.Outcome State Fault Refusal :=
  issue codeReceive (runReceive t r) s

end Sys2Proof.Machine
end

