-- ==== Sys2Proof/Machine/WireFrame.lean ====
section
/-! DEFINITION. The two rows of format WIRE (30_encoding.md R74, R75). A frame is no command: the command port rejects its
first byte as an illegal code (R80, R83). The one step of the spec that takes a frame from outside into LNK is PEER's,
which appends bytes to RXQ (00_scope.md R12, 10_state.md R37), where the next poll finds them. DESIGN CHOICE (log 8):
executing a frame is that step. -/

namespace Sys2Proof.Machine

/-- `FRAME_WRITE` arrives (R74, R37). -/
def execFrameWrite (len : Byte) (addr : U16) (data : List Byte) (chk : U16) (s : State) :
    Host.Outcome State Fault Refusal :=
  .next (peerAppend (encode (.frameWrite len addr data chk)) s)

/-- `FRAME_READ` arrives (R75, R37). -/
def execFrameRead (addr : U16) (bc : Byte) (chk : U16) (s : State) : Host.Outcome State Fault Refusal :=
  .next (peerAppend (encode (.frameRead addr bc chk)) s)

end Sys2Proof.Machine
end

