-- ==== Sys2Proof/Machine/Dispatch.lean ====
section
/-! DEFINITION. One arm for each instruction. -/

namespace Sys2Proof.Machine

def exec (i : Instr) (s : State) : Host.Outcome State Fault Refusal :=
  match i with
  | .crc d => Sys2Proof.Machine.execCrc d s
  | .crcAppend d => Sys2Proof.Machine.execCrcAppend d s
  | .crcVerify c d => Sys2Proof.Machine.execCrcVerify c d s
  | .crcVerifyBuf b d => Sys2Proof.Machine.execCrcVerifyBuf b d s
  | .buildWrite a d => Sys2Proof.Machine.execBuildWrite a d s
  | .buildRead a w => Sys2Proof.Machine.execBuildRead a w s
  | .send d => Sys2Proof.Machine.execSend d s
  | .receive t r => Sys2Proof.Machine.execReceive t r s
  | .frameWrite len addr data chk => Sys2Proof.Machine.execFrameWrite len addr data chk s
  | .frameRead addr bc chk => Sys2Proof.Machine.execFrameRead addr bc chk s

end Sys2Proof.Machine
end

