-- ==== Sys2Proof/Machine/Fetch.lean ====
section
/-! DEFINITION. What an agent's step asks of the machine: LNK fetches no instruction (10_state.md R21); commands come on the
command port and frames come on the channel. -/

namespace Sys2Proof.Machine

/-- What an event is. -/
inductive Fetched where
  /-- An instruction to run: a whole command record, or the bytes of a frame that PEER delivers. -/
  | run (i : Instr)
  /-- A record whose code is illegal (R83). -/
  | illegal
  /-- No whole record, which the port never delivers (R81). -/
  | notWhole
  /-- Bytes from PEER that are not one frame of the table's two rows. -/
  | arrive (bytes : List Byte)
  | wire
  | tick
  | reset
deriving DecidableEq, Repr

/-- A record on the command port (R27, R81). -/
def fetchRecord (record : List Byte) : Fetched :=
  match decodeRecord record with
  | .ok i => .run i
  | .error (.illegalCode _) => .illegal
  | .error _ => .notWhole

/-- Bytes from PEER (R37). -/
def fetchPeer (bytes : List Byte) : Fetched :=
  match decodeFrame bytes with
  | .ok i => .run i
  | .error _ => .arrive bytes

/-- What an event is. -/
def fetch (e : Event) : Fetched :=
  match e with
  | .issue record => fetchRecord record
  | .peer bytes => fetchPeer bytes
  | .wire => .wire
  | .tick => .tick
  | .reset => .reset

/-- The event that brings an instruction: a record issued by HOST, or a frame delivered by PEER. -/
def eventOf (i : Instr) : Event := if i.isFrame then .peer (encode i) else .issue (encode i)

/-- The event that brings the instruction of a table word: its own bytes and no more (`encode` of a decoded instruction
is the bytes it was decoded from). A word that is no instruction comes as it stands on the command port. -/
def tableEvent (nbits w : Nat) : Event :=
  match decodeTablePrefix nbits w with
  | .ok p => eventOf p.1
  | .error _ => .issue (tableBytes nbits w)

end Sys2Proof.Machine
end

