-- ==== Sys2Proof/Machine/Step.lean ====
section
/-! DEFINITION. One step of the machine: the next agent's step (00_scope.md R12). -/

namespace Sys2Proof.Machine

/-- What a fetched event does. -/
def perform (f : Fetched) (s : State) : Host.Outcome State Fault Refusal :=
  match f with
  | .run i => exec i s
  | .illegal => .next (issueIllegal s)
  | .notWhole => .fault .notWholeRecord
  | .arrive bytes => .next (peerAppend bytes s)
  | .wire => .next (wireStep s)
  | .tick => .next (tick s)
  | .reset => .next (warmReset s)

/-- One step: the first of the agents' steps to come is taken off `inputs` and performed. Where no agent takes a step,
nothing changes (DESIGN CHOICE, log 1). -/
def step (s : State) : Host.Outcome State Fault Refusal :=
  match s.inputs with
  | [] => .next s
  | e :: es => perform (fetch e) { s with inputs := es }

/-- `s` with the instruction of a table word as the next step to come (log 10). -/
def State.withFetchWord (s : State) (nbits w : Nat) : State := { s with inputs := tableEvent nbits w :: s.inputs }

end Sys2Proof.Machine
end

