-- ==== Sys2Proof/Machine/BoundedStorage.lean ====
section
/-! DEFINITION. The bounded storage that R171 allows an implementation of FR (42_frame_receiver.md): the last drained byte
while searching, the bytes from FR_OFF once a header is found, and nothing past the frame's end. -/

namespace Sys2Proof.Machine

/-- The receiver registers as an implementation with bounded storage holds them between polls (R171). -/
def compact (s : State) : State :=
  match s.frState with
  | .searchingHeader =>
    { s with frBuf := s.frBuf.drop (s.frBuf.length - 1), frScan := 0, frOff := 0, frLen := 0 }
  | .headerFoundAwaitingLength => { s with frBuf := s.frBuf.drop s.frOff, frScan := 0, frOff := 0, frLen := 0 }
  | .accumulatingBody =>
    { s with frBuf := (s.frBuf.drop s.frOff).take (3 + s.frLen.toNat), frScan := 0, frOff := 0 }
  | .idle => { s with frBuf := [], frScan := 0, frOff := 0, frLen := 0 }
  | .complete => { s with frBuf := [], frScan := 0, frOff := 0, frLen := 0 }
  | .failed => { s with frBuf := [], frScan := 0, frOff := 0, frLen := 0 }

end Sys2Proof.Machine
end

