-- ==== Sys2Proof/Machine/HostPort.lean ====
section
/-! DEFINITION. The HOST's side of the port: what it reads (10_state.md R24 to R26, R29), and the pseudo-instructions it
expands into commands (30_encoding.md R86, R87). LNK sees only the expansion. -/

namespace Sys2Proof.Machine

/-- The registers that the HOST can read. Reading has no side effect (20_memory.md R61). -/
structure HostView where
  status : U16
  cur : Byte
  resU16 : U16
  resBool : BitVec 1
  resData : List Byte
  resAttempts : U16
  frState : BitVec 3
deriving DecidableEq, Repr

/-- What the HOST reads in a state. FR_BUF, FR_SCAN, FR_OFF, FR_LEN, FR_ELAPSED, FR_ATTEMPT, FR_TIMEOUT and FR_MAXRETRY
cannot be read (R30 to R36). -/
def hostView (s : State) : HostView where
  status := s.status
  cur := s.cur
  resU16 := s.resU16
  resBool := s.resBool
  resData := s.resData
  resAttempts := s.resAttempts
  frState := s.frState.code

/-- The command that `CHECK` stands for when RES_DATA holds `res` (R87):
`CRC_VERIFY_BUF RES[3, N−2), RES[N−2, N)`, defined only when N ≥ 5. -/
def checkCommand (res : List Byte) : Option Instr :=
  if 5 ≤ res.length then
    some (.crcVerifyBuf (slice res (res.length - 2) res.length) (slice res 3 (res.length - 2)))
  else none

/-- One action of a HOST that carries out an expansion (R87). -/
inductive HostAct where
  /-- Issue this command. -/
  | command (i : Instr)
  /-- `SEND RES`: the operand is RES_DATA as the HOST reads it just before issuing (R86). -/
  | sendRes
  /-- Take no command step until STATUS.DONE = 1; an error then stops the expansion. -/
  | waitDone
deriving DecidableEq, Repr

/-- `XFER_WRITE a, d, T, R` (R87). -/
def xferWrite (a : U16) (d : List Byte) (t : U16) (r : Byte) : List HostAct :=
  [.command (.buildWrite a d), .waitDone, .sendRes, .command (.receive t r), .waitDone]

/-- `XFER_READ a, w, T, R` (R87). -/
def xferRead (a : U16) (w : Byte) (t : U16) (r : Byte) : List HostAct :=
  [.command (.buildRead a w), .waitDone, .sendRes, .command (.receive t r), .waitDone]

/-- What the HOST does next: the record it issues, if it issues one, and the actions left. DEDUCED (log 15): at a wait the
HOST reads STATUS, and an ERR other than 0 ends the expansion. A HOST that sees BUSY = 0, DONE = 0 and CUR = 0x00 at a wait
has lost its command to a reset (70_reset_and_hazards.md R231), which does not say whether the expansion ends: DESIGN CHOICE
(log 20), it stays at the wait, so it does not take the loss for a success. -/
def hostNext (acts : List HostAct) (s : State) : Option (List Byte) × List HostAct :=
  match acts with
  | [] => (none, [])
  | .command i :: rest => (some (encode i), rest)
  | .sendRes :: rest => (some (encode (.send s.resData)), rest)
  | .waitDone :: rest =>
    if s.done then (none, if s.err = 0 then rest else []) else (none, .waitDone :: rest)

end Sys2Proof.Machine
end

