-- ==== Sys2Proof/Safety.lean ====
section
/-! DEFINITION. The terms in which claims about LNK are stated: what a step leaves unchanged, the receiver's result as a
function of the byte stream (42_frame_receiver.md R170), the invariant of every step, and runs of agent steps. -/

namespace Sys2Proof.Machine

/-! ### What stays the same -/

/-- Every register of the frame receiver (R29 to R36) is unchanged. -/
structure SameReceiver (s t : State) : Prop where
  frState : t.frState = s.frState
  frBuf : t.frBuf = s.frBuf
  frScan : t.frScan = s.frScan
  frOff : t.frOff = s.frOff
  frLen : t.frLen = s.frLen
  frElapsed : t.frElapsed = s.frElapsed
  frAttempt : t.frAttempt = s.frAttempt
  frTimeout : t.frTimeout = s.frTimeout
  frMaxRetry : t.frMaxRetry = s.frMaxRetry

/-- The response registers (R26) are unchanged. -/
structure SameResponse (s t : State) : Prop where
  resU16 : t.resU16 = s.resU16
  resBool : t.resBool = s.resBool
  resData : t.resData = s.resData
  resAttempts : t.resAttempts = s.resAttempts

/-- The channel (R37 to R39) is unchanged. -/
structure SameChannel (s t : State) : Prop where
  rxq : t.rxq = s.rxq
  txq : t.txq = s.txq
  txlog : t.txlog = s.txlog

/-- Every register of LNK is unchanged: STATUS, CUR, the response registers and the receiver's. -/
structure SameRegisters (s t : State) : Prop where
  status : t.status = s.status
  cur : t.cur = s.cur
  response : SameResponse s t
  receiver : SameReceiver s t

/-- The response registers hold these values. -/
structure Response (t : State) (u : U16) (b : BitVec 1) (d : List Byte) (n : U16) : Prop where
  resU16 : t.resU16 = u
  resBool : t.resBool = b
  resData : t.resData = d
  resAttempts : t.resAttempts = n

/-- The command with code `c` was accepted in `s` and finished with `e` in `t` (R27, R28): STATUS is ERR = `e`, DONE = 1,
BUSY = 0 with the reserved bits as they were, CUR is `c`, ACK is ACCEPTED, and no agent's step to come is touched. -/
structure FinishedWith (e : ErrKind) (c : Byte) (s t : State) : Prop where
  err : t.err = e.code
  done : t.done = true
  busy : t.busy = false
  reserved : statusReserved t.status = statusReserved s.status
  cur : t.cur = c
  ack : t.ack = some .accepted
  inputs : t.inputs = s.inputs

/-! ### Runs of agent steps -/

/-- The machine after the agents have taken exactly these steps. -/
def runEvents (es : List Event) (s : State) : Host.Outcome State Fault Refusal :=
  Sys2Proof.core.run es.length { s with inputs := es }

/-- PEER delivers a chunk and then a tick passes, for each chunk in turn. -/
def deliveries (chunks : List (List Byte)) : List Event := chunks.flatMap fun c => [.peer c, .tick]

/-- `k` ticks pass. -/
def ticks (k : Nat) : List Event := List.replicate k .tick

/-! ### The receiver's result as a function of the stream (R170) -/

/-- `5A A5` and a length byte of 5 or more stand at index `i` of the stream. -/
def headerAt (stream : List Byte) (i : Nat) : Bool :=
  match stream[i]?, stream[i + 1]?, stream[i + 2]? with
  | some a, some b, some len => a == Config.hdr1 && b == Config.hdr2 && decide (Config.minLen ≤ len.toNat)
  | _, _, _ => false

/-- `h(S)` (R170): the least index of such a header. -/
def firstHeader (stream : List Byte) : Option Nat := (List.range stream.length).find? (headerAt stream)

/-- The frame that the stream `S` delivers (R170): `S[h, h + 3 + S[h+2])` once all of it is there. -/
def streamFrame (stream : List Byte) : Option (List Byte) :=
  match firstHeader stream with
  | none => none
  | some h =>
    match stream[h + 2]? with
    | none => none
    | some len =>
      if h + 3 + len.toNat ≤ stream.length then some (slice stream h (h + 3 + len.toNat)) else none

/-- A frame's shape (R70, R78, R79): header, a length byte of 5 or more, and that many bytes after it. -/
def frameShaped (f : List Byte) : Bool :=
  match f with
  | a :: b :: len :: r =>
    a == Config.hdr1 && b == Config.hdr2 && decide (Config.minLen ≤ len.toNat) && decide (r.length = len.toNat)
  | _ => false

/-- FR is at the start of an attempt (R162), with a timeout of one poll or more. -/
structure AttemptStart (s : State) : Prop where
  busy : s.busy = true
  frState : s.frState = .searchingHeader
  frBuf : s.frBuf = []
  frScan : s.frScan = 0
  frElapsed : s.frElapsed = 0
  timeout : s.frTimeout ≠ 0

/-- How many polls an active RECEIVE still has (R172): the rest of this attempt, and T for each attempt left. -/
def pollsLeft (s : State) : Nat :=
  (s.frMaxRetry.toNat + 1 - s.frAttempt.toNat) * s.frTimeout.toNat + (s.frTimeout.toNat - s.frElapsed.toNat)

/-! ### The invariant -/

/-- What holds in every state that a run reaches. -/
structure Inv (s : State) : Prop where
  /-- The reserved STATUS bits read as 0 (R24). -/
  reserved : statusReserved s.status = 0
  /-- ERR values 4 to 15 are never produced (R84, U10, U11). -/
  err : s.err.toNat ≤ 3
  /-- CUR is 0x00 or a legal code (R25, R27). -/
  cur : s.cur = 0 ∨ s.cur ∈ legalCodes
  /-- BUSY is 1 only while an accepted RECEIVE has not finished (R24), and then nothing is reported. -/
  busy : s.busy = true → s.cur = codeReceive ∧ s.done = false ∧ s.err = 0
  /-- BUSY = 0 with DONE = 0 only before the first command after reset (R230, R231). -/
  fresh : s.busy = false → s.done = false → s.cur = 0 ∧ s.err = 0
  /-- No attempt runs while BUSY = 0: FR_BUF is empty (R30) and FR_STATE is IDLE, COMPLETE or FAILED (R29). -/
  quiet : s.busy = false → s.frBuf = [] ∧ (s.frState = .idle ∨ s.frState = .complete ∨ s.frState = .failed)
  /-- While BUSY = 1, FR_STATE is one of the three search states (R29). -/
  active : s.busy = true →
    s.frState = .searchingHeader ∨ s.frState = .headerFoundAwaitingLength ∨ s.frState = .accumulatingBody
  /-- FR_ELAPSED never exceeds FR_TIMEOUT (R34). -/
  elapsed : s.frElapsed.toNat ≤ s.frTimeout.toNat
  /-- FR_ATTEMPT never exceeds FR_MAXRETRY + 1 (R35). -/
  attempt : s.frAttempt.toNat ≤ s.frMaxRetry.toNat + 1
  /-- While BUSY = 1 the attempt has time left and is counted from 1 (R35, R167). -/
  running : s.busy = true → s.frElapsed.toNat < s.frTimeout.toNat ∧ 1 ≤ s.frAttempt.toNat
  /-- While BUSY = 1 the response registers hold what the acceptance of the RECEIVE left: 0 and empty (R27, R166, R167). -/
  cleared : s.busy = true → Response s 0 0 [] 0
  /-- Between polls a search has examined all but the last byte: no frame begins in the buffer, and its last two bytes are
  no header, which R165 would have found. -/
  searching : s.frState = .searchingHeader →
    s.frScan = s.frBuf.length - 1 ∧ firstHeader s.frBuf = none ∧
      s.frBuf.drop (s.frBuf.length - 2) ≠ [Config.hdr1, Config.hdr2]
  /-- Between polls a header awaiting its length byte stands at the end of the buffer (R165). -/
  awaiting : s.frState = .headerFoundAwaitingLength →
    s.frOff + 2 = s.frBuf.length ∧ s.frBuf[s.frOff]? = some Config.hdr1 ∧
      s.frBuf[s.frOff + 1]? = some Config.hdr2 ∧ firstHeader s.frBuf = none
  /-- Between polls an accumulating frame begins at the first legal header and is not yet whole (R165, R170). -/
  accumulating : s.frState = .accumulatingBody →
    firstHeader s.frBuf = some s.frOff ∧ s.frBuf[s.frOff + 2]? = some s.frLen ∧ s.frBuf.length < frameEnd s
  /-- RES_DATA has at most MAX_OPERAND_BYTES + 2 bytes (R26). -/
  resData : s.resData.length ≤ Config.maxOperandBytes + 2
  /-- A RECEIVE that finished with OK left a frame, the number of its attempt and COMPLETE (R166). -/
  received : s.cur = codeReceive → s.done = true → s.err = ErrKind.ok.code →
    frameShaped s.resData = true ∧ s.frState = .complete ∧ s.resAttempts = s.frAttempt ∧ 1 ≤ s.resAttempts.toNat
  /-- A RECEIVE that finished with Timeout left the attempt count R + 1, no data and FAILED (R167, R201). -/
  timedOut : s.cur = codeReceive → s.done = true → s.err = ErrKind.timeout.code →
    s.resData = [] ∧ s.frState = .failed ∧ s.resAttempts.toNat = s.frMaxRetry.toNat + 1

end Sys2Proof.Machine
end

