-- ==== Sys2Proof/Certificates/Slice0/Obligations.lean ====
section
/-! DEFINITION. What is claimed of LNK. Every statement is about the machine, over all states it names. -/

open Sys2Proof Sys2Proof.Machine

/-! ### Steps, decoding and encoding -/

/-- The machine runs what it decodes: a record issued on the command port (10_state.md R21, R23), a frame of the table's two
rows delivered by PEER (the model's reading of these rows, log 8). What `step` adds is that the agent's step is taken off
`inputs` (log 1). -/
def Obligations.StepRunsTheDecodedInstruction : Prop :=
  ∀ (s : State) (bs : List Byte) (es : List Event) (i : Instr),
    (s.inputs = .issue bs :: es → decodeRecord bs = .ok i → step s = exec i { s with inputs := es }) ∧
    (s.inputs = .peer bs :: es → decodeFrame bs = .ok i → step s = exec i { s with inputs := es })

/-- The records and frames of the spec's vectors decode to the instructions they stand for (30_encoding.md R74, R75, R81;
95_test_vectors.md V-CE-09, V-CE-13, V-CE-21, V-FE-01, V-FE-06, program P1). -/
def Obligations.SpecRecordsDecodeToTheirCommands : Prop :=
  decodeRecord [0x01, 0x00, 0x04, 0x83, 0x50, 0x00, 0x04] = .ok (.crc [0x83, 0x50, 0x00, 0x04]) ∧
  decodeRecord [0x02, 0x00, 0x02, 0x12, 0x34] = .ok (.crcAppend [0x12, 0x34]) ∧
  decodeRecord [0x03, 0x72, 0x28, 0x00, 0x04, 0x83, 0x50, 0x00, 0x04] =
    .ok (.crcVerify 0x7228 [0x83, 0x50, 0x00, 0x04]) ∧
  decodeRecord [0x04, 0x00, 0x02, 0x28, 0x72, 0x00, 0x04, 0x83, 0x50, 0x00, 0x04] =
    .ok (.crcVerifyBuf [0x28, 0x72] [0x83, 0x50, 0x00, 0x04]) ∧
  decodeRecord [0x10, 0x50, 0x00, 0x00, 0x04, 0x12, 0x34, 0xAB, 0xCD] =
    .ok (.buildWrite 0x5000 [0x12, 0x34, 0xAB, 0xCD]) ∧
  decodeRecord [0x11, 0x50, 0x00, 0x02] = .ok (.buildRead 0x5000 2) ∧
  decodeRecord [0x12, 0x00, 0x03, 0x5A, 0xA5, 0x05] = .ok (.send [0x5A, 0xA5, 0x05]) ∧
  decodeRecord [0x20, 0x00, 0x14, 0x01] = .ok (.receive 20 1) ∧
  decodeFrame [0x5A, 0xA5, 0x09, 0x82, 0x50, 0x00, 0x12, 0x34, 0xAB, 0xCD, 0x4F, 0x4B] =
    .ok (.frameWrite 9 0x5000 [0x12, 0x34, 0xAB, 0xCD] 0x4B4F) ∧
  decodeFrame [0x5A, 0xA5, 0x06, 0x83, 0x50, 0x00, 0x04, 0x28, 0x72] = .ok (.frameRead 0x5000 4 0x7228)

/-- Decode and encode agree: every instruction that an encoding can carry is read back from its bytes, operand for
operand, by the decoder of its own kind and by the common one. -/
def Obligations.DecodeReadsBackEveryEncoding : Prop :=
  ∀ i : Instr, i.encodable = true →
    decode (encode i) = .ok i ∧
    (if i.isFrame then decodeFrame (encode i) = .ok i else decodeRecord (encode i) = .ok i)

/-- Every decoding is one of an encodable instruction whose bytes are exactly the bytes decoded, so that two instructions
never share their bytes. -/
def Obligations.EveryDecodingEncodesBackToItsBytes : Prop :=
  ∀ (bs : List Byte) (i : Instr),
    (decode bs = .ok i → i.encodable = true ∧ encode i = bs) ∧
    (decodeRecord bs = .ok i → i.encodable = true ∧ i.isFrame = false ∧ encode i = bs) ∧
    (decodeFrame bs = .ok i → i.encodable = true ∧ i.isFrame = true ∧ encode i = bs)

/-- The well-formed instructions, as R72 to R75 lay their frames out, are among the encodable ones, and a well-formed
frame has a length byte of 5 or more (R78). -/
def Obligations.WellFormedInstructionsAreEncodable : Prop :=
  (∀ i : Instr, i.wellFormed = true → i.encodable = true) ∧
  ∀ (len : Byte) (addr : U16) (data : List Byte) (chk : U16),
    (Instr.frameWrite len addr data chk).wellFormed = true → 5 ≤ len.toNat

/-- R83: exactly the codes outside R80 are illegal, whatever bytes follow; there are 248 of them. Issuing one changes no
state: the HOST sees REJECTED_ILLEGAL, or REJECTED_BUSY while a RECEIVE is active (R27). -/
def Obligations.IllegalCodesAreRejected : Prop :=
  ((List.range 256).filter fun n => !legalCodes.contains (BitVec.ofNat 8 n)).length = 248 ∧
  ∀ (s : State) (c : Byte) (r : List Byte) (es : List Event),
    c ∉ legalCodes → s.inputs = .issue (c :: r) :: es →
      step s = .next { s with inputs := es, ack := some (if s.busy then .rejectedBusy else .rejectedIllegal) }

/-- R203: a command issued while BUSY changes no state, not even STATUS; only the HOST's own ACK (no register, R23)
tells it. -/
def Obligations.BusyCommandsChangeNoState : Prop :=
  ∀ (s : State) (i : Instr), s.busy = true → i.isFrame = false →
    exec i s = .next { s with ack := some .rejectedBusy }

/-! ### Reset and the other agents -/

/-- R40: the values right after the first reset; the channel's and the model's own fields are the model's choice (log 1,
log 2, log 3). -/
def Obligations.ResetStateHoldsTheResetValues : Prop :=
  State.reset.status = 0x0000 ∧ State.reset.err = 0 ∧ State.reset.busy = false ∧ State.reset.done = false ∧
  State.reset.cur = 0x00 ∧ Response State.reset 0x0000 0 [] 0x0000 ∧ State.reset.frState.code = 0 ∧
  State.reset.frBuf = [] ∧ State.reset.frScan = 0 ∧ State.reset.frOff = 0 ∧ State.reset.frLen = 0 ∧
  State.reset.frElapsed = 0 ∧ State.reset.frAttempt = 0 ∧ State.reset.frTimeout = 0 ∧
  State.reset.frMaxRetry = 0 ∧ State.reset.txlog = []

/-- R230: reset sets every LNK register to its reset value and changes neither the channel nor the log; then STATUS and CUR
are 0, FR_STATE is IDLE, and a command would be accepted. -/
def Obligations.ResetSetsEveryRegisterAndKeepsTheChannel : Prop :=
  ∀ (s : State) (es : List Event), s.inputs = .reset :: es →
    ∃ t, step s = .next t ∧ SameRegisters State.reset t ∧ SameChannel s t ∧ t.inputs = es ∧
      t.status = 0x0000 ∧ t.cur = 0x00 ∧ t.frState = .idle ∧ t.busy = false

/-- R231: a reset while a RECEIVE runs abandons it without `finish`, the drained bytes are lost and the bytes of RXQ stay;
the next command is accepted. -/
def Obligations.ResetAbandonsAReceive : Prop :=
  ∀ (s : State) (es : List Event), s.busy = true → s.inputs = .reset :: es →
    ∃ t, step s = .next t ∧ t.status = 0x0000 ∧ t.cur = 0x00 ∧ t.frState = .idle ∧ t.frBuf = [] ∧ t.rxq = s.rxq ∧
      t.busy = false

/-- R38, R39: a WIRE step moves the head byte of TXQ to the end of TXLOG and touches nothing else; with TXQ empty nothing
happens (the model's inference, log 13). -/
def Obligations.WireSendsTheHeadByte : Prop :=
  ∀ (s : State) (es : List Event), s.inputs = .wire :: es →
    (∀ b r, s.txq = b :: r → step s = .next { s with inputs := es, txq := r, txlog := s.txlog ++ [b] }) ∧
    (s.txq = [] → step s = .next { s with inputs := es })

/-- R37, R168: bytes from PEER join the tail of RXQ, whether a RECEIVE runs or not and whatever the bytes are, and touch
nothing else. -/
def Obligations.PeerBytesJoinTheTail : Prop :=
  ∀ (s : State) (bs : List Byte) (es : List Event), s.inputs = .peer bs :: es →
    step s = .next { s with inputs := es, rxq := s.rxq ++ bs }

/-- R168: a TICK step while STATUS.BUSY = 0 changes nothing. -/
def Obligations.IdleTickChangesNothing : Prop :=
  ∀ (s : State) (es : List Event), s.busy = false → s.inputs = .tick :: es → step s = .next { s with inputs := es }

/-! ### The checksum engine -/

/-- R100: each of the 256 entries listed is what the procedure TabGen computes. -/
def Obligations.CtabHoldsTheGeneratedEntries : Prop := ∀ i : Byte, ctab i = tabGen i

/-- R102: the table-driven update equals the bitwise update for every register value and every byte. -/
def Obligations.ByteUpdateEqualsBitwiseUpdate : Prop :=
  ∀ (reg : U16) (b : Byte), crcUpdate reg b = crcUpdateBitwise reg b

/-- R103: the checksum starts from 0xFFFF, takes the bytes in order, and has the check value 0x4B37. -/
def Obligations.ChecksumFoldsTheBytesInOrder : Prop :=
  crc [] = 0xFFFF ∧ (∀ (s : List Byte) (b : Byte), crc (s ++ [b]) = (crc s >>> 8) ^^^ ctab (loByte (crc s ^^^ b.setWidth 16))) ∧
  crc [0x31, 0x32, 0x33, 0x34, 0x35, 0x36, 0x37, 0x38, 0x39] = 0x4B37

/-- R111: the checksum of a concatenation is the second part's fold from the first part's checksum. -/
def Obligations.ChecksumStreams : Prop := ∀ s t : List Byte, crc (s ++ t) = t.foldl crcUpdate (crc s)

/-- R108: a sequence followed by its own checksum, low byte first, has checksum 0. -/
def Obligations.ChecksumResidueIsZero : Prop := ∀ s : List Byte, crc (s ++ le16 (crc s)) = 0x0000

/-- R110 in the spec's stronger form: flipping any one bit of any one byte changes the checksum. -/
def Obligations.SingleBitFlipChangesTheChecksum : Prop :=
  ∀ (pre post : List Byte) (b : Byte) (k : Nat), k < 8 →
    crc (pre ++ (b ^^^ ((1 : Byte) <<< k)) :: post) ≠ crc (pre ++ b :: post)

/-- R104, whole: the record, the result for every operand, the error, and the frame. -/
def Obligations.CrcGivesTheChecksum : Prop :=
  ∀ (s : State) (d : List Byte), s.busy = false →
    encode (.crc d) = 0x01 :: (be16 (BitVec.ofNat 16 d.length) ++ d) ∧
    ∃ t, exec (.crc d) s = .next t ∧ SameReceiver s t ∧ SameChannel s t ∧
      (d.length ≤ Config.maxOperandBytes → FinishedWith .ok 0x01 s t ∧ Response t (crc d) 0 [] 0) ∧
      (Config.maxOperandBytes < d.length → FinishedWith .invalidArgument 0x01 s t ∧ Response t 0 0 [] 0)

/-- R105, whole. -/
def Obligations.CrcAppendAddsTheChecksum : Prop :=
  ∀ (s : State) (d : List Byte), s.busy = false →
    encode (.crcAppend d) = 0x02 :: (be16 (BitVec.ofNat 16 d.length) ++ d) ∧
    ∃ t, exec (.crcAppend d) s = .next t ∧ SameReceiver s t ∧ SameChannel s t ∧
      (d.length ≤ Config.maxOperandBytes →
        FinishedWith .ok 0x02 s t ∧ Response t 0 0 (d ++ [loByte (crc d), hiByte (crc d)]) 0 ∧
          t.resData.length = d.length + 2 ∧ crc t.resData = 0) ∧
      (Config.maxOperandBytes < d.length → FinishedWith .invalidArgument 0x02 s t ∧ Response t 0 0 [] 0)

/-- R106, whole: a mismatch finishes with OK; with R109: any sequence verifies against its own checksum. -/
def Obligations.CrcVerifyComparesTheChecksum : Prop :=
  ∀ (s : State) (c : U16) (d : List Byte), s.busy = false →
    encode (.crcVerify c d) = 0x03 :: (be16 c ++ (be16 (BitVec.ofNat 16 d.length) ++ d)) ∧
    ∃ t, exec (.crcVerify c d) s = .next t ∧ SameReceiver s t ∧ SameChannel s t ∧
      (d.length ≤ Config.maxOperandBytes →
        FinishedWith .ok 0x03 s t ∧ Response t 0 (if crc d = c then 1 else 0) [] 0) ∧
      (Config.maxOperandBytes < d.length → FinishedWith .invalidArgument 0x03 s t ∧ Response t 0 0 [] 0)

/-- R107, whole: `b[0]` is the low byte, and a buffer whose length is not 2 is an InvalidArgument. -/
def Obligations.CrcVerifyBufComparesTheBuffer : Prop :=
  ∀ (s : State) (b d : List Byte), s.busy = false →
    encode (.crcVerifyBuf b d) =
      0x04 :: (be16 (BitVec.ofNat 16 b.length) ++ b ++ (be16 (BitVec.ofNat 16 d.length) ++ d)) ∧
    ∃ t, exec (.crcVerifyBuf b d) s = .next t ∧ SameReceiver s t ∧ SameChannel s t ∧
      (∀ b0 b1, d.length ≤ Config.maxOperandBytes → b = [b0, b1] →
        FinishedWith .ok 0x04 s t ∧
          Response t 0 (if crc d = (b1.setWidth 16 <<< 8) ||| b0.setWidth 16 then 1 else 0) [] 0) ∧
      (Config.maxOperandBytes < d.length ∨ Config.maxOperandBytes < b.length ∨ b.length ≠ 2 →
        FinishedWith .invalidArgument 0x04 s t ∧ Response t 0 0 [] 0)

/-! ### The frame encoder -/

/-- R131, whole: the record, the frame of R74 for every n up to 250, OutOfRange above, InvalidArgument for an over-long
operand (checked first, R205), and the frame. -/
def Obligations.BuildWriteBuildsTheFrame : Prop :=
  ∀ (s : State) (a : U16) (d : List Byte), s.busy = false →
    encode (.buildWrite a d) = 0x10 :: (be16 a ++ (be16 (BitVec.ofNat 16 d.length) ++ d)) ∧
    ∃ t, exec (.buildWrite a d) s = .next t ∧ SameReceiver s t ∧ SameChannel s t ∧
      (d.length ≤ 250 →
        FinishedWith .ok 0x10 s t ∧
          Response t 0 0
            ([0x5A, 0xA5, BitVec.ofNat 8 (d.length + 5), 0x82, hiByte a, loByte a] ++ d ++
              le16 (crc ([0x82, hiByte a, loByte a] ++ d))) 0 ∧ t.resData.length = d.length + 8) ∧
      (250 < d.length → d.length ≤ Config.maxOperandBytes →
        FinishedWith .outOfRange 0x10 s t ∧ Response t 0 0 [] 0) ∧
      (Config.maxOperandBytes < d.length → FinishedWith .invalidArgument 0x10 s t ∧ Response t 0 0 [] 0)

/-- R132, whole: the record, the nine bytes of R75 for every w up to 128, OutOfRange above, and the frame. -/
def Obligations.BuildReadBuildsTheFrame : Prop :=
  ∀ (s : State) (a : U16) (w : Byte), s.busy = false →
    encode (.buildRead a w) = [0x11, hiByte a, loByte a, w] ∧
    ∃ t, exec (.buildRead a w) s = .next t ∧ SameReceiver s t ∧ SameChannel s t ∧
      (w.toNat ≤ 128 →
        FinishedWith .ok 0x11 s t ∧
          ∀ bc : Byte, bc.toNat = 2 * w.toNat % 256 →
            Response t 0 0
              ([0x5A, 0xA5, 0x06, 0x83, hiByte a, loByte a, bc] ++ le16 (crc [0x83, hiByte a, loByte a, bc])) 0) ∧
      (128 < w.toNat → FinishedWith .outOfRange 0x11 s t ∧ Response t 0 0 [] 0)

/-- R241: a read of 128 words and a read of 0 words give the same frame, and so the same state. -/
def Obligations.ReadOf128WordsIsReadOf0Words : Prop :=
  ∀ (s : State) (a : U16), exec (.buildRead a 128) s = exec (.buildRead a 0) s

/-- R134, whole: every frame that a build command returns has the header, a length byte that counts the rest and is 5 to
255, its checksum at its end, residue 0, and is returned unchanged by a RECEIVE that finds it alone in RXQ. -/
def Obligations.BuiltFramesMeetTheFrameInvariants : Prop :=
  ∀ (s t : State) (i : Instr), s.busy = false → (∃ a d, i = .buildWrite a d) ∨ (∃ a w, i = .buildRead a w) →
    exec i s = .next t → t.err = ErrKind.ok.code →
      slice t.resData 0 2 = [0x5A, 0xA5] ∧
      (∃ len : Byte, t.resData[2]? = some len ∧ len.toNat = t.resData.length - 3 ∧ 5 ≤ len.toNat) ∧
      slice t.resData (t.resData.length - 2) t.resData.length =
        le16 (crc (slice t.resData 3 (t.resData.length - 2))) ∧
      crc (slice t.resData 3 t.resData.length) = 0x0000 ∧
      ∀ u : State, AttemptStart u → u.rxq = t.resData →
        ∃ v, runEvents [.tick] u = .next v ∧ v.resData = t.resData ∧ v.done = true ∧ v.err = ErrKind.ok.code

/-- R133, whole: the record; a write frame discards the queued bytes, a read frame discards them exactly when the OPEN
parameter says so, anything else never; then the bytes are appended. An over-long operand sends nothing. -/
def Obligations.SendQueuesTheBytes : Prop :=
  ∀ (s : State) (d : List Byte), s.busy = false →
    encode (.send d) = 0x12 :: (be16 (BitVec.ofNat 16 d.length) ++ d) ∧
    ∃ t, exec (.send d) s = .next t ∧ SameReceiver s t ∧ t.rxq = s.rxq ∧ t.txlog = s.txlog ∧ Response t 0 0 [] 0 ∧
      (Config.maxOperandBytes < d.length → FinishedWith .invalidArgument 0x12 s t ∧ t.txq = s.txq) ∧
      (d.length ≤ Config.maxOperandBytes →
        FinishedWith .ok 0x12 s t ∧
        (d[0]? = some 0x5A ∧ d[1]? = some 0xA5 ∧ d[3]? = some 0x82 → t.txq = d) ∧
        (d[0]? = some 0x5A ∧ d[1]? = some 0xA5 ∧ d[3]? = some 0x83 →
          t.txq = if Config.flushTxOnReadSend then d else s.txq ++ d) ∧
        (¬(d[0]? = some 0x5A ∧ d[1]? = some 0xA5 ∧ (d[3]? = some 0x82 ∨ d[3]? = some 0x83)) → t.txq = s.txq ++ d))

/-- XFER_WRITE up to its RECEIVE (30_encoding.md R87): BUILD_WRITE and then SEND RES leave exactly the write frame in TXQ;
whatever was queued before is lost (70_reset_and_hazards.md R236). -/
def Obligations.WriteTransferLeavesOnlyItsFrameQueued : Prop :=
  ∀ (s : State) (a : U16) (d : List Byte), s.busy = false → d.length ≤ 250 →
    ∃ t u, runEvents [.issue (encode (.buildWrite a d))] s = .next t ∧
      runEvents [.issue (encode (.send t.resData))] t = .next u ∧
      u.txq = t.resData ∧ u.txq.length = d.length + 8 ∧ u.rxq = s.rxq ∧ u.txlog = s.txlog ∧ u.err = ErrKind.ok.code

/-- CHECK (R87) is defined exactly for five bytes and more, and on every frame that a build command returns it answers
RES_BOOL = 1. -/
def Obligations.CheckAcceptsBuiltFrames : Prop :=
  (∀ res : List Byte, checkCommand res = none ↔ res.length < 5) ∧
  ∀ (s t : State) (i : Instr), s.busy = false → (∃ a d, i = .buildWrite a d) ∨ (∃ a w, i = .buildRead a w) →
    exec i s = .next t → t.err = ErrKind.ok.code →
      ∃ c u, checkCommand t.resData = some c ∧ exec c t = .next u ∧ u.err = ErrKind.ok.code ∧ u.resBool = 1

/-! ### The frame receiver -/

/-- R161, whole: RECEIVE with T = 0 is an InvalidArgument and leaves FR untouched; with T ≥ 1 it latches its operands,
starts attempt 1 (R162) and is BUSY with nothing finished and nothing drained. -/
def Obligations.ReceiveStartsTheFirstAttempt : Prop :=
  ∀ (s : State) (n : U16) (r : Byte), s.busy = false →
    encode (.receive n r) = [0x20, hiByte n, loByte n, r] ∧
    ∃ t, exec (.receive n r) s = .next t ∧ SameChannel s t ∧ Response t 0 0 [] 0 ∧ t.cur = 0x20 ∧
      t.ack = some .accepted ∧ t.inputs = s.inputs ∧ statusReserved t.status = statusReserved s.status ∧
      (n = 0 → FinishedWith .invalidArgument 0x20 s t ∧ SameReceiver s t) ∧
      (n ≠ 0 → AttemptStart t ∧ t.done = false ∧ t.err = 0 ∧ t.frTimeout = n ∧ t.frMaxRetry = r ∧ t.frAttempt = 1 ∧
        t.frOff = 0 ∧ t.frLen = 0)

/-- The loop of Advance() ends by itself (R165): more turns than the model allows it change nothing, in any state. -/
def Obligations.AdvanceEndsByItself : Prop :=
  ∀ (s : State) (n : Nat), 2 * s.frBuf.length + 4 ≤ n → advanceLoop n s = advance s

/-- R166 with R163 to R165: a tick whose drain makes the stream's first frame whole returns exactly that frame, even on the
last poll of the attempt, loses every other byte, and finishes with OK and the number of the attempt. FR_OFF and FR_LEN say
where the frame stood in the stream; FR_SCAN may move; nothing else changes. -/
def Obligations.TickReturnsTheCompletedFrame : Prop :=
  ∀ (s : State) (f : List Byte) (es : List Event), Inv s → s.busy = true → s.inputs = .tick :: es →
    streamFrame (s.frBuf ++ s.rxq) = some f →
      ∃ t, step s = .next t ∧ Response t s.resU16 s.resBool f s.frAttempt ∧ t.err = ErrKind.ok.code ∧ t.done = true ∧
        t.busy = false ∧ statusReserved t.status = statusReserved s.status ∧ t.cur = s.cur ∧ t.ack = s.ack ∧
        t.inputs = es ∧ t.frState = .complete ∧ t.frBuf = [] ∧ firstHeader (s.frBuf ++ s.rxq) = some t.frOff ∧
        f.length = 3 + t.frLen.toNat ∧ t.frElapsed = s.frElapsed ∧ t.frAttempt = s.frAttempt ∧
        t.frTimeout = s.frTimeout ∧ t.frMaxRetry = s.frMaxRetry ∧ t.rxq = [] ∧ t.txq = s.txq ∧ t.txlog = s.txlog

/-- R167 with R163 to R165: a tick without a whole frame counts one tick; when the attempt has used its T polls it starts
the next attempt with an empty buffer, and after the last one it finishes with Timeout and the attempt count. The search
itself may move FR_SCAN, FR_OFF, FR_LEN and, while the attempt goes on, FR_STATE; nothing else changes. -/
def Obligations.TickWithoutAFrameCountsTime : Prop :=
  ∀ (s : State) (es : List Event), Inv s → s.busy = true → s.inputs = .tick :: es →
    streamFrame (s.frBuf ++ s.rxq) = none →
      ∃ t, step s = .next t ∧ SameChannel { s with rxq := [] } t ∧ t.cur = s.cur ∧ t.ack = s.ack ∧ t.inputs = es ∧
        t.frTimeout = s.frTimeout ∧ t.frMaxRetry = s.frMaxRetry ∧ t.resU16 = s.resU16 ∧ t.resBool = s.resBool ∧
        t.resData = s.resData ∧ statusReserved t.status = statusReserved s.status ∧
        (s.frElapsed.toNat + 1 < s.frTimeout.toNat →
          t.status = s.status ∧ t.frElapsed.toNat = s.frElapsed.toNat + 1 ∧ t.frAttempt = s.frAttempt ∧
            t.frBuf = s.frBuf ++ s.rxq ∧ t.resAttempts = s.resAttempts ∧ t.busy = true ∧
            (t.frState = .searchingHeader ∨ t.frState = .headerFoundAwaitingLength ∨ t.frState = .accumulatingBody)) ∧
        (s.frElapsed.toNat + 1 = s.frTimeout.toNat → s.frAttempt.toNat < s.frMaxRetry.toNat + 1 →
          AttemptStart t ∧ t.frOff = 0 ∧ t.frLen = 0 ∧ t.status = s.status ∧
            t.frAttempt.toNat = s.frAttempt.toNat + 1 ∧ t.resAttempts = s.resAttempts) ∧
        (s.frElapsed.toNat + 1 = s.frTimeout.toNat → s.frAttempt.toNat = s.frMaxRetry.toNat + 1 →
          t.busy = false ∧ t.done = true ∧ t.err = ErrKind.timeout.code ∧ t.frState = .failed ∧ t.frBuf = [] ∧
            t.frElapsed = s.frTimeout ∧ t.frAttempt = s.frAttempt ∧ t.resAttempts.toNat = s.frMaxRetry.toNat + 1)

/-- R170, whole: the attempt returns the frame that the concatenated stream determines, however PEER splits it over the
polls, as long as it is whole within the attempt's T polls; and until the stream holds a whole frame the attempt goes on
and holds the whole stream. -/
def Obligations.ReceivedFrameDependsOnlyOnTheStream : Prop :=
  ∀ (s : State) (chunks : List (List Byte)), AttemptStart s → chunks ≠ [] →
    (∀ f, chunks.length ≤ s.frTimeout.toNat → streamFrame (s.rxq ++ chunks.flatten) = some f →
      ∃ t, runEvents (deliveries chunks) s = .next t ∧ t.resData = f ∧ t.err = ErrKind.ok.code ∧ t.done = true ∧
        t.busy = false ∧ t.resAttempts = s.frAttempt ∧ t.frState = .complete) ∧
    (chunks.length < s.frTimeout.toNat → streamFrame (s.rxq ++ chunks.flatten) = none →
      ∃ t, runEvents (deliveries chunks) s = .next t ∧ t.busy = true ∧ t.frBuf = s.rxq ++ chunks.flatten ∧
        t.rxq = [] ∧ t.frElapsed.toNat = chunks.length ∧ t.frAttempt = s.frAttempt ∧ t.resData = s.resData)

/-- R173, whole: a false header (length byte 0 to 4) is skipped and the real frame after it is returned, in the same drain
or a later one; garbage whose length byte is 5 or more is returned as it stands. `pre` and `mid` are bytes other than
0x5A. -/
def Obligations.FalseHeadersAreSkipped : Prop :=
  ∀ (s : State) (pre mid f post : List Byte) (len : Byte), AttemptStart s → s.rxq = [] →
    (∀ b ∈ pre, b ≠ 0x5A) → (∀ b ∈ mid, b ≠ 0x5A) → frameShaped f = true →
      (len.toNat < 5 →
        (∃ t, runEvents (deliveries [pre ++ [0x5A, 0xA5, len] ++ mid ++ f ++ post]) s = .next t ∧
          t.resData = f ∧ t.done = true ∧ t.err = ErrKind.ok.code) ∧
        (1 < s.frTimeout.toNat →
          ∃ t, runEvents (deliveries [pre ++ [0x5A, 0xA5, len] ++ mid, f ++ post]) s = .next t ∧
            t.resData = f ∧ t.done = true ∧ t.err = ErrKind.ok.code)) ∧
      (∀ body : List Byte, 5 ≤ len.toNat → body.length = len.toNat →
        ∃ t, runEvents (deliveries [pre ++ [0x5A, 0xA5, len] ++ body ++ post]) s = .next t ∧
          t.resData = [0x5A, 0xA5, len] ++ body ∧ t.done = true ∧ t.err = ErrKind.ok.code)

/-- R169: FR delimits and checks nothing else. Two slices of one length byte are both returned, whatever their opcode,
payload and checksum; what follows in the same drain is lost (R166, D10, R240). -/
def Obligations.ReceiveChecksNeitherOpcodeNorChecksum : Prop :=
  ∀ (s : State) (len : Byte) (body rest : List Byte), AttemptStart s → 5 ≤ len.toNat → body.length = len.toNat →
    s.rxq = 0x5A :: 0xA5 :: len :: (body ++ rest) →
      ∃ t, runEvents (ticks 1) s = .next t ∧ t.resData = 0x5A :: 0xA5 :: len :: body ∧ t.err = ErrKind.ok.code ∧
        t.done = true ∧ t.rxq = [] ∧ t.frBuf = []

/-- R172: on a silent channel RECEIVE T, R is BUSY for every tick before the T × (R + 1)-th and then ends with Timeout,
carrying R + 1. -/
def Obligations.SilentReceiveTimesOutExactly : Prop :=
  ∀ (s : State) (n : U16) (r : Byte), s.busy = false → n ≠ 0 → s.rxq = [] →
    (∀ k, k < n.toNat * (r.toNat + 1) →
      ∃ t, runEvents (.issue (encode (.receive n r)) :: ticks k) s = .next t ∧ t.busy = true ∧ t.done = false) ∧
    ∃ t, runEvents (.issue (encode (.receive n r)) :: ticks (n.toNat * (r.toNat + 1))) s = .next t ∧
      t.busy = false ∧ t.done = true ∧ t.err = ErrKind.timeout.code ∧ t.frState = .failed ∧ t.resData = [] ∧
      t.resAttempts.toNat = r.toNat + 1

/-- R172: whatever arrives, a RECEIVE has at most T × (R + 1) polls. A tick uses up exactly one of the polls left, no
other agent's step uses one or gives one back, and while BUSY at least one is left. -/
def Obligations.EveryTickUsesUpOnePoll : Prop :=
  (∀ (s t : State) (n : U16) (r : Byte), s.busy = false → n ≠ 0 → exec (.receive n r) s = .next t →
    pollsLeft t = n.toNat * (r.toNat + 1)) ∧
  ∀ (s t : State) (e : Event) (es : List Event), Inv s → s.busy = true → s.inputs = e :: es → e ≠ .reset →
    step s = .next t → 0 < pollsLeft s ∧
      (e = .tick → t.busy = false ∨ pollsLeft t + 1 = pollsLeft s) ∧
      (e ≠ .tick → t.busy = true ∧ pollsLeft t = pollsLeft s)

/-- R171: with at most 258 bytes of storage between polls the receiver gives the same results: the HOST sees the same, and
a tick commutes with dropping the bytes that R171 says need not be kept. -/
def Obligations.BoundedStorageGivesTheSameResults : Prop :=
  ∀ s : State, Inv s →
    (compact s).frBuf.length ≤ 258 ∧ hostView (compact s) = hostView s ∧
      hostView (tick (compact s)) = hostView (tick s) ∧ compact (tick (compact s)) = compact (tick s)

/-! ### The wire frames of the table -/

/-- A frame of the table's two rows that arrives (the model's reading of these rows, log 8) is appended to RXQ byte for
byte in the layout of R70, R74 and R75, and touches nothing else, BUSY or not. -/
def Obligations.ArrivingFramesJoinRxq : Prop :=
  ∀ (s : State) (addr : U16) (chk : U16),
    (∀ (len : Byte) (data : List Byte),
      exec (.frameWrite len addr data chk) s =
        .next { s with rxq := s.rxq ++
          ([0x5A, 0xA5, len, 0x82, hiByte addr, loByte addr] ++ data ++ [loByte chk, hiByte chk]) }) ∧
    ∀ bc : Byte,
      exec (.frameRead addr bc chk) s =
        .next { s with rxq := s.rxq ++ [0x5A, 0xA5, 0x06, 0x83, hiByte addr, loByte addr, bc, loByte chk, hiByte chk] }

/-- A well-formed frame of the table that arrives (that executing such a row is PEER's delivery into RXQ is the model's
reading of these rows, log 8) at the start of an attempt with nothing before it is returned unchanged by the next poll
(R170, R74, R75). -/
def Obligations.WellFormedFramesAreReceivedUnchanged : Prop :=
  ∀ (s : State) (i : Instr), AttemptStart s → s.rxq = [] → i.isFrame = true → i.wellFormed = true →
    ∃ t u, exec i s = .next t ∧ runEvents [.tick] t = .next u ∧ u.resData = encode i ∧ u.err = ErrKind.ok.code ∧
      u.done = true ∧ u.busy = false

/-! ### Whole-machine rules -/

/-- Every instruction completes: none stops the machine (60_exceptions.md R200: LNK has no traps). -/
def Obligations.EveryInstructionHasANextState : Prop := ∀ (i : Instr) (s : State), ∃ t, exec i s = .next t

/-- A step stops only where the port is given bytes that it never delivers (R81; log 7): no bytes, or a legal code that
is not followed by exactly its operands. No step is refused. -/
def Obligations.StepsStopOnlyOnBrokenRecords : Prop :=
  ∀ s : State,
    (∀ r, step s ≠ .refused r) ∧
    (∀ f, step s = .fault f →
      ∃ bs es, s.inputs = .issue bs :: es ∧ (∀ i : Instr, i.encodable = true → i.isFrame = false → encode i ≠ bs) ∧
        (bs = [] ∨ ∃ c r, bs = c :: r ∧ c ∈ legalCodes))

/-- The invariant that every step of every agent keeps. -/
def Obligations.EveryStepKeepsTheInvariant : Prop := ∀ s t : State, Inv s → step s = .next t → Inv t

/-- The invariant holds after reset, whatever the channel holds at launch and whatever steps come. -/
def Obligations.ResetStateMeetsTheInvariant : Prop :=
  Inv State.reset ∧ ∀ (rxq0 txq0 : List Byte) (es : List Event), Inv (State.launch rxq0 txq0 es)

/-- R37: RXQ changes only by PEER's append and by the drain of a poll, which empties it. -/
def Obligations.OnlyPeerAndPollsChangeRxq : Prop :=
  ∀ s t : State, step s = .next t →
    t.rxq = s.rxq ∨ (∃ bs es, s.inputs = .peer bs :: es ∧ t.rxq = s.rxq ++ bs) ∨
      (∃ es, s.inputs = .tick :: es ∧ s.busy = true ∧ t.rxq = [])

/-- R38, R39, R63: TXLOG only grows, and only by the byte that WIRE takes from the head of TXQ; TXQ changes otherwise only
by an accepted SEND, which appends its operand, after emptying TXQ or not. -/
def Obligations.OnlyWireAndSendChangeTheTransmitSide : Prop :=
  ∀ s t : State, step s = .next t →
    (t.txq = s.txq ∧ t.txlog = s.txlog) ∨
      (∃ b es, s.inputs = .wire :: es ∧ s.txq = b :: t.txq ∧ t.txlog = s.txlog ++ [b]) ∨
      (∃ d es, s.inputs = .issue (encode (.send d)) :: es ∧ s.busy = false ∧ t.txlog = s.txlog ∧
        (t.txq = s.txq ++ d ∨ t.txq = d))

/-- R25: CUR is written only by the acceptance of a command, with its code, and by reset. -/
def Obligations.CurIsWrittenOnlyAtAcceptance : Prop :=
  ∀ s t : State, step s = .next t →
    t.cur = s.cur ∨ (∃ es, s.inputs = .reset :: es ∧ t.cur = 0) ∨
      (∃ c r es, s.inputs = .issue (c :: r) :: es ∧ s.busy = false ∧ c ∈ legalCodes ∧ t.cur = c)

/-- R24: no step but reset writes the reserved bits of STATUS. -/
def Obligations.ReservedStatusBitsAreNeverWritten : Prop :=
  ∀ s t : State, step s = .next t →
    statusReserved t.status = statusReserved s.status ∨ ∃ es, s.inputs = .reset :: es ∧ t.status = 0

/-- R29 to R36: the receiver's registers change only by a poll, by an accepted RECEIVE with T ≥ 1, and by reset. -/
def Obligations.OnlyReceiveAndPollsChangeTheReceiver : Prop :=
  ∀ s t : State, step s = .next t →
    SameReceiver s t ∨ (∃ es, s.inputs = .tick :: es ∧ s.busy = true) ∨ (∃ es, s.inputs = .reset :: es) ∨
      (∃ n r es, s.inputs = .issue (encode (.receive n r)) :: es ∧ s.busy = false ∧ n ≠ 0)

/-- R26, D27: the response registers keep their values until a command is accepted, a poll ends a RECEIVE, or reset. -/
def Obligations.ResponseRegistersKeepTheirValues : Prop :=
  ∀ s t : State, step s = .next t →
    SameResponse s t ∨ t.ack = some .accepted ∧ s.busy = false ∧ (∃ bs es, s.inputs = .issue bs :: es) ∨
      (∃ es, s.inputs = .tick :: es ∧ s.busy = true ∧ t.busy = false) ∨ (∃ es, s.inputs = .reset :: es)

/-- R61: every command but SEND and RECEIVE leaves the channel as it is, and issuing it twice gives the same state as
issuing it once. -/
def Obligations.ChannelFreeCommandsAreIdempotent : Prop :=
  ∀ (s t : State) (i : Instr), i.isFrame = false → (∀ d, i ≠ .send d) → (∀ n r, i ≠ .receive n r) →
    exec i s = .next t → SameChannel s t ∧ exec i t = .next t

/-- R64: LNK gives no indication that TXQ has emptied. Two states that differ only in TXQ and TXLOG give the HOST the same
view and the same ACK, and FR the same registers and queue, after any step. -/
def Obligations.HostCannotSeeTheTransmitQueue : Prop :=
  ∀ (s t : State) (q l : List Byte), step s = .next t →
    ∃ t', step { s with txq := q, txlog := l } = .next t' ∧ hostView t' = hostView t ∧ t'.ack = t.ack ∧
      t'.rxq = t.rxq ∧ t'.inputs = t.inputs ∧ SameReceiver t t'
end

