-- ==== Sys2Proof/Laws/Operands.lean ====
section
/-! SUPPORT. Lemmas about operand forms and byte order. -/

namespace Sys2Proof.Machine

@[simp] theorem hiByte_u16Of (hi lo : Byte) : hiByte (u16Of hi lo) = hi := by
  ext i h; interval_cases i <;> simp [hiByte, u16Of, ← BitVec.getLsbD_eq_getElem]

@[simp] theorem loByte_u16Of (hi lo : Byte) : loByte (u16Of hi lo) = lo := by
  ext i h; interval_cases i <;> simp [loByte, u16Of, ← BitVec.getLsbD_eq_getElem]

@[simp] theorem u16Of_hiByte_loByte (v : U16) : u16Of (hiByte v) (loByte v) = v := by
  ext i h; interval_cases i <;> simp [hiByte, loByte, u16Of, ← BitVec.getLsbD_eq_getElem]

@[simp] theorem length_le16 (v : U16) : (le16 v).length = 2 := rfl

@[simp] theorem length_be16 (v : U16) : (be16 v).length = 2 := rfl

theorem slice_length (s : List Byte) (a b : Nat) : (slice s a b).length = min (b - a) (s.length - a) := by
  simp [slice]

/-- The value of the OPEN parameter is between its bounds (00_scope.md R8). -/
theorem minOperandBytes_le : 258 ≤ Config.maxOperandBytes := by
  simp only [Config.maxOperandBytes, Config.minOperandBytes]; omega

theorem maxOperandBytes_le : Config.maxOperandBytes ≤ 65535 := by
  have := Config.operandSlack.isLt
  simp only [Config.maxOperandBytes, Config.minOperandBytes]; omega

/-- An operand is over-long exactly when it is longer than `MAX_OPERAND_BYTES` (30_encoding.md R81). -/
theorem overLong_iff (d : List Byte) : overLong d = true ↔ Config.maxOperandBytes < d.length := by
  rw [overLong, Bool.and_eq_true, decide_eq_true_iff, decide_eq_true_iff]
  exact ⟨And.right, fun h => ⟨Nat.lt_of_le_of_lt minOperandBytes_le h, h⟩⟩

theorem overLong_eq_false_iff (d : List Byte) : overLong d = false ↔ d.length ≤ Config.maxOperandBytes := by
  rw [← Bool.not_eq_true, overLong_iff, Nat.not_lt]

end Sys2Proof.Machine
end

