-- ==== Sys2Proof/Laws/Decode.lean ====
section
/-! SUPPORT. What each reader of the decoder does, on the bytes its writer wrote and on any bytes. -/

namespace Sys2Proof

open Machine

/-- `splitBytes n` takes the first `n` bytes, wherever there are that many. -/
theorem splitBytes_append (d r : List Byte) : splitBytes d.length (d ++ r) = some (d, r) := by
  induction d with
  | nil => rfl
  | cons b d ih => simp [splitBytes, ih]

/-- What `splitBytes` answers is a split of the bytes with a first part of the length asked for. -/
theorem splitBytes_eq_some {n : Nat} {bs d r : List Byte} :
    splitBytes n bs = some (d, r) ↔ bs = d ++ r ∧ d.length = n := by
  constructor
  · induction n generalizing bs d with
    | zero => rintro ⟨⟩; exact ⟨rfl, rfl⟩
    | succ n ih =>
      cases bs with
      | nil => intro h; exact absurd h (by simp [splitBytes])
      | cons b bs =>
        intro h
        simp only [splitBytes, Option.map_eq_some_iff, Prod.mk.injEq] at h
        obtain ⟨⟨d', r'⟩, h', rfl, rfl⟩ := h
        obtain ⟨rfl, rfl⟩ := ih h'
        exact ⟨rfl, rfl⟩
  · rintro ⟨rfl, rfl⟩
    exact splitBytes_append d r

/-! ### Each reader on what its writer wrote -/

@[simp] theorem withByte_cons (b : Byte) (r : List Byte) (k : Byte → List Byte → Decoded) :
    withByte (b :: r) k = k b r := rfl

@[simp] theorem withU16_be16 (v : U16) (r : List Byte) (k : U16 → List Byte → Decoded) :
    withU16 (be16 v ++ r) k = k v r := by simp [withU16, be16]

@[simp] theorem withU16Le_le16 (v : U16) (r : List Byte) (k : U16 → List Byte → Decoded) :
    withU16Le (le16 v ++ r) k = k v r := by simp [withU16Le, le16]

theorem withBytes_append (d r : List Byte) (k : List Byte → List Byte → Decoded) :
    withBytes d.length (d ++ r) k = k d r := by simp [withBytes, splitBytes_append]

theorem withSeq_encodeSeq {d : List Byte} (h : d.length < 65536) (r : List Byte)
    (k : List Byte → List Byte → Decoded) : withSeq (encodeSeq d ++ r) k = k d r := by
  have hl : (BitVec.ofNat 16 d.length).toNat = d.length := by simpa using h
  rw [encodeSeq, List.append_assoc, withSeq, withU16_be16, hl, withBytes_append]

/-! ### Each reader on any bytes: if it answers, how the bytes begin -/

theorem withByte_eq_ok {bs : List Byte} {k : Byte → List Byte → Decoded} {p : Instr × List Byte}
    (h : withByte bs k = .ok p) : ∃ b r, bs = b :: r ∧ k b r = .ok p := by
  match bs, h with
  | b :: r, h => exact ⟨b, r, rfl, h⟩

theorem withU16_eq_ok {bs : List Byte} {k : U16 → List Byte → Decoded} {p : Instr × List Byte}
    (h : withU16 bs k = .ok p) : ∃ v r, bs = be16 v ++ r ∧ k v r = .ok p := by
  match bs, h with
  | hi :: lo :: r, h => exact ⟨u16Of hi lo, r, by simp [be16], h⟩

theorem withU16Le_eq_ok {bs : List Byte} {k : U16 → List Byte → Decoded} {p : Instr × List Byte}
    (h : withU16Le bs k = .ok p) : ∃ v r, bs = le16 v ++ r ∧ k v r = .ok p := by
  match bs, h with
  | lo :: hi :: r, h => exact ⟨u16Of hi lo, r, by simp [le16], h⟩

theorem withBytes_eq_ok {n : Nat} {bs : List Byte} {k : List Byte → List Byte → Decoded} {p : Instr × List Byte}
    (h : withBytes n bs k = .ok p) : ∃ d r, bs = d ++ r ∧ d.length = n ∧ k d r = .ok p := by
  rw [withBytes] at h
  split at h
  · next q hq => exact ⟨q.1, q.2, (splitBytes_eq_some.1 hq).1, (splitBytes_eq_some.1 hq).2, h⟩
  · cases h

theorem withSeq_eq_ok {bs : List Byte} {k : List Byte → List Byte → Decoded} {p : Instr × List Byte}
    (h : withSeq bs k = .ok p) : ∃ d r, bs = encodeSeq d ++ r ∧ d.length < 65536 ∧ k d r = .ok p := by
  obtain ⟨v, r, rfl, h⟩ := withU16_eq_ok h
  obtain ⟨d, r, rfl, hl, h⟩ := withBytes_eq_ok h
  refine ⟨d, r, ?_, by have := v.isLt; omega, h⟩
  simp [encodeSeq, hl]

/-- A whole decoding is a decoding with no byte left. -/
theorem whole_eq_ok {x : Decoded} {i : Instr} : whole x = .ok i ↔ x = .ok (i, []) := by
  unfold whole
  split <;> simp_all

end Sys2Proof
end

