-- ==== Sys2Proof/Laws/Flags.lean ====
section
/-! SUPPORT. What each STATUS update does to each STATUS field: every field read after every write. -/

namespace Sys2Proof.Machine

@[simp] theorem statusErr_setErr (e : BitVec 4) (st : U16) : statusErr (setErr e st) = e := by
  ext i h; interval_cases i <;> simp [statusErr, setErr]

@[simp] theorem statusBusy_setErr (e : BitVec 4) (st : U16) : statusBusy (setErr e st) = statusBusy st := by
  simp [statusBusy, setErr]

@[simp] theorem statusDone_setErr (e : BitVec 4) (st : U16) : statusDone (setErr e st) = statusDone st := by
  simp [statusDone, setErr]

@[simp] theorem statusReserved_setErr (e : BitVec 4) (st : U16) :
    statusReserved (setErr e st) = statusReserved st := by
  ext i h; interval_cases i <;> simp [statusReserved, setErr]

@[simp] theorem statusErr_setBusy (b : Bool) (st : U16) : statusErr (setBusy b st) = statusErr st := by
  cases b <;> (ext i h; interval_cases i <;> simp [statusErr, setBusy])

@[simp] theorem statusBusy_setBusy (b : Bool) (st : U16) : statusBusy (setBusy b st) = b := by
  cases b <;> simp [statusBusy, setBusy]

@[simp] theorem statusDone_setBusy (b : Bool) (st : U16) : statusDone (setBusy b st) = statusDone st := by
  cases b <;> simp [statusDone, setBusy]

@[simp] theorem statusReserved_setBusy (b : Bool) (st : U16) :
    statusReserved (setBusy b st) = statusReserved st := by
  cases b <;> (ext i h; interval_cases i <;> simp [statusReserved, setBusy])

@[simp] theorem statusErr_setDone (b : Bool) (st : U16) : statusErr (setDone b st) = statusErr st := by
  cases b <;> (ext i h; interval_cases i <;> simp [statusErr, setDone])

@[simp] theorem statusBusy_setDone (b : Bool) (st : U16) : statusBusy (setDone b st) = statusBusy st := by
  cases b <;> simp [statusBusy, setDone]

@[simp] theorem statusDone_setDone (b : Bool) (st : U16) : statusDone (setDone b st) = b := by
  cases b <;> simp [statusDone, setDone]

@[simp] theorem statusReserved_setDone (b : Bool) (st : U16) :
    statusReserved (setDone b st) = statusReserved st := by
  cases b <;> (ext i h; interval_cases i <;> simp [statusReserved, setDone])

/-- Two STATUS words with the same four fields are the same word. -/
theorem status_ext {st st' : U16} (he : statusErr st = statusErr st') (hb : statusBusy st = statusBusy st')
    (hd : statusDone st = statusDone st') (hr : statusReserved st = statusReserved st') : st = st' := by
  ext i h
  have e (k : Nat) : (statusErr st).getLsbD k = (statusErr st').getLsbD k := by rw [he]
  have r (k : Nat) : (statusReserved st).getLsbD k = (statusReserved st').getLsbD k := by rw [hr]
  have e0 := e 0; have e1 := e 1; have e2 := e 2; have e3 := e 3
  have r0 := r 0; have r1 := r 1; have r2 := r 2; have r3 := r 3; have r4 := r 4
  have r5 := r 5; have r6 := r 6; have r7 := r 7; have r8 := r 8; have r9 := r 9
  simp [statusErr, statusReserved] at e0 e1 e2 e3 r0 r1 r2 r3 r4 r5 r6 r7 r8 r9
  simp only [statusBusy, statusDone] at hb hd
  interval_cases i <;> simp_all [← BitVec.getLsbD_eq_getElem]

/-! ### The two updates of the rules -/

@[simp] theorem statusErr_accepted (st : U16) : statusErr (statusAccepted st) = 0 := by simp [statusAccepted]

@[simp] theorem statusBusy_accepted (st : U16) : statusBusy (statusAccepted st) = statusBusy st := by
  simp [statusAccepted]

@[simp] theorem statusDone_accepted (st : U16) : statusDone (statusAccepted st) = false := by simp [statusAccepted]

@[simp] theorem statusReserved_accepted (st : U16) : statusReserved (statusAccepted st) = statusReserved st := by
  simp [statusAccepted]

@[simp] theorem statusErr_finished (e : ErrKind) (st : U16) : statusErr (statusFinished e st) = e.code := by
  simp [statusFinished]

@[simp] theorem statusBusy_finished (e : ErrKind) (st : U16) : statusBusy (statusFinished e st) = false := by
  simp [statusFinished]

@[simp] theorem statusDone_finished (e : ErrKind) (st : U16) : statusDone (statusFinished e st) = true := by
  simp [statusFinished]

@[simp] theorem statusReserved_finished (e : ErrKind) (st : U16) :
    statusReserved (statusFinished e st) = statusReserved st := by simp [statusFinished]

end Sys2Proof.Machine
end

