-- ==== Sys2Proof/Laws/State.lean ====
section
/-! SUPPORT. One lemma for each field of State under each update, so that no proof unfolds a record update. -/

namespace Sys2Proof.Machine

/-! ### `finish` -/

@[simp] theorem finish_status (e : ErrKind) (s : State) : (s.finish e).status = statusFinished e s.status := rfl
@[simp] theorem finish_cur (e : ErrKind) (s : State) : (s.finish e).cur = s.cur := rfl
@[simp] theorem finish_resU16 (e : ErrKind) (s : State) : (s.finish e).resU16 = s.resU16 := rfl
@[simp] theorem finish_resBool (e : ErrKind) (s : State) : (s.finish e).resBool = s.resBool := rfl
@[simp] theorem finish_resData (e : ErrKind) (s : State) : (s.finish e).resData = s.resData := rfl
@[simp] theorem finish_resAttempts (e : ErrKind) (s : State) : (s.finish e).resAttempts = s.resAttempts := rfl
@[simp] theorem finish_frState (e : ErrKind) (s : State) : (s.finish e).frState = s.frState := rfl
@[simp] theorem finish_frBuf (e : ErrKind) (s : State) : (s.finish e).frBuf = s.frBuf := rfl
@[simp] theorem finish_frScan (e : ErrKind) (s : State) : (s.finish e).frScan = s.frScan := rfl
@[simp] theorem finish_frOff (e : ErrKind) (s : State) : (s.finish e).frOff = s.frOff := rfl
@[simp] theorem finish_frLen (e : ErrKind) (s : State) : (s.finish e).frLen = s.frLen := rfl
@[simp] theorem finish_frElapsed (e : ErrKind) (s : State) : (s.finish e).frElapsed = s.frElapsed := rfl
@[simp] theorem finish_frAttempt (e : ErrKind) (s : State) : (s.finish e).frAttempt = s.frAttempt := rfl
@[simp] theorem finish_frTimeout (e : ErrKind) (s : State) : (s.finish e).frTimeout = s.frTimeout := rfl
@[simp] theorem finish_frMaxRetry (e : ErrKind) (s : State) : (s.finish e).frMaxRetry = s.frMaxRetry := rfl
@[simp] theorem finish_rxq (e : ErrKind) (s : State) : (s.finish e).rxq = s.rxq := rfl
@[simp] theorem finish_txq (e : ErrKind) (s : State) : (s.finish e).txq = s.txq := rfl
@[simp] theorem finish_txlog (e : ErrKind) (s : State) : (s.finish e).txlog = s.txlog := rfl
@[simp] theorem finish_ack (e : ErrKind) (s : State) : (s.finish e).ack = s.ack := rfl
@[simp] theorem finish_inputs (e : ErrKind) (s : State) : (s.finish e).inputs = s.inputs := rfl

/-! ### `raise` -/

@[simp] theorem raise_status (k : ErrKind) (s : State) : (s.raise k).status = statusFinished k s.status := rfl
@[simp] theorem raise_cur (k : ErrKind) (s : State) : (s.raise k).cur = s.cur := rfl
@[simp] theorem raise_resU16 (k : ErrKind) (s : State) : (s.raise k).resU16 = s.resU16 := rfl
@[simp] theorem raise_resBool (k : ErrKind) (s : State) : (s.raise k).resBool = s.resBool := rfl
@[simp] theorem raise_resData (k : ErrKind) (s : State) : (s.raise k).resData = s.resData := rfl
@[simp] theorem raise_resAttempts (k : ErrKind) (s : State) : (s.raise k).resAttempts = s.resAttempts := rfl
@[simp] theorem raise_frState (k : ErrKind) (s : State) : (s.raise k).frState = s.frState := rfl
@[simp] theorem raise_frBuf (k : ErrKind) (s : State) : (s.raise k).frBuf = s.frBuf := rfl
@[simp] theorem raise_frScan (k : ErrKind) (s : State) : (s.raise k).frScan = s.frScan := rfl
@[simp] theorem raise_frOff (k : ErrKind) (s : State) : (s.raise k).frOff = s.frOff := rfl
@[simp] theorem raise_frLen (k : ErrKind) (s : State) : (s.raise k).frLen = s.frLen := rfl
@[simp] theorem raise_frElapsed (k : ErrKind) (s : State) : (s.raise k).frElapsed = s.frElapsed := rfl
@[simp] theorem raise_frAttempt (k : ErrKind) (s : State) : (s.raise k).frAttempt = s.frAttempt := rfl
@[simp] theorem raise_frTimeout (k : ErrKind) (s : State) : (s.raise k).frTimeout = s.frTimeout := rfl
@[simp] theorem raise_frMaxRetry (k : ErrKind) (s : State) : (s.raise k).frMaxRetry = s.frMaxRetry := rfl
@[simp] theorem raise_rxq (k : ErrKind) (s : State) : (s.raise k).rxq = s.rxq := rfl
@[simp] theorem raise_txq (k : ErrKind) (s : State) : (s.raise k).txq = s.txq := rfl
@[simp] theorem raise_txlog (k : ErrKind) (s : State) : (s.raise k).txlog = s.txlog := rfl
@[simp] theorem raise_ack (k : ErrKind) (s : State) : (s.raise k).ack = s.ack := rfl
@[simp] theorem raise_inputs (k : ErrKind) (s : State) : (s.raise k).inputs = s.inputs := rfl

/-! ### `withAck` -/

@[simp] theorem withAck_status (a : Ack) (s : State) : (s.withAck a).status = s.status := rfl
@[simp] theorem withAck_cur (a : Ack) (s : State) : (s.withAck a).cur = s.cur := rfl
@[simp] theorem withAck_resU16 (a : Ack) (s : State) : (s.withAck a).resU16 = s.resU16 := rfl
@[simp] theorem withAck_resBool (a : Ack) (s : State) : (s.withAck a).resBool = s.resBool := rfl
@[simp] theorem withAck_resData (a : Ack) (s : State) : (s.withAck a).resData = s.resData := rfl
@[simp] theorem withAck_resAttempts (a : Ack) (s : State) : (s.withAck a).resAttempts = s.resAttempts := rfl
@[simp] theorem withAck_frState (a : Ack) (s : State) : (s.withAck a).frState = s.frState := rfl
@[simp] theorem withAck_frBuf (a : Ack) (s : State) : (s.withAck a).frBuf = s.frBuf := rfl
@[simp] theorem withAck_frScan (a : Ack) (s : State) : (s.withAck a).frScan = s.frScan := rfl
@[simp] theorem withAck_frOff (a : Ack) (s : State) : (s.withAck a).frOff = s.frOff := rfl
@[simp] theorem withAck_frLen (a : Ack) (s : State) : (s.withAck a).frLen = s.frLen := rfl
@[simp] theorem withAck_frElapsed (a : Ack) (s : State) : (s.withAck a).frElapsed = s.frElapsed := rfl
@[simp] theorem withAck_frAttempt (a : Ack) (s : State) : (s.withAck a).frAttempt = s.frAttempt := rfl
@[simp] theorem withAck_frTimeout (a : Ack) (s : State) : (s.withAck a).frTimeout = s.frTimeout := rfl
@[simp] theorem withAck_frMaxRetry (a : Ack) (s : State) : (s.withAck a).frMaxRetry = s.frMaxRetry := rfl
@[simp] theorem withAck_rxq (a : Ack) (s : State) : (s.withAck a).rxq = s.rxq := rfl
@[simp] theorem withAck_txq (a : Ack) (s : State) : (s.withAck a).txq = s.txq := rfl
@[simp] theorem withAck_txlog (a : Ack) (s : State) : (s.withAck a).txlog = s.txlog := rfl
@[simp] theorem withAck_ack (a : Ack) (s : State) : (s.withAck a).ack = some a := rfl
@[simp] theorem withAck_inputs (a : Ack) (s : State) : (s.withAck a).inputs = s.inputs := rfl

/-! ### `accept` -/

@[simp] theorem accept_status (c : Byte) (s : State) : (s.accept c).status = statusAccepted s.status := rfl
@[simp] theorem accept_cur (c : Byte) (s : State) : (s.accept c).cur = c := rfl
@[simp] theorem accept_resU16 (c : Byte) (s : State) : (s.accept c).resU16 = 0 := rfl
@[simp] theorem accept_resBool (c : Byte) (s : State) : (s.accept c).resBool = 0 := rfl
@[simp] theorem accept_resData (c : Byte) (s : State) : (s.accept c).resData = [] := rfl
@[simp] theorem accept_resAttempts (c : Byte) (s : State) : (s.accept c).resAttempts = 0 := rfl
@[simp] theorem accept_frState (c : Byte) (s : State) : (s.accept c).frState = s.frState := rfl
@[simp] theorem accept_frBuf (c : Byte) (s : State) : (s.accept c).frBuf = s.frBuf := rfl
@[simp] theorem accept_frScan (c : Byte) (s : State) : (s.accept c).frScan = s.frScan := rfl
@[simp] theorem accept_frOff (c : Byte) (s : State) : (s.accept c).frOff = s.frOff := rfl
@[simp] theorem accept_frLen (c : Byte) (s : State) : (s.accept c).frLen = s.frLen := rfl
@[simp] theorem accept_frElapsed (c : Byte) (s : State) : (s.accept c).frElapsed = s.frElapsed := rfl
@[simp] theorem accept_frAttempt (c : Byte) (s : State) : (s.accept c).frAttempt = s.frAttempt := rfl
@[simp] theorem accept_frTimeout (c : Byte) (s : State) : (s.accept c).frTimeout = s.frTimeout := rfl
@[simp] theorem accept_frMaxRetry (c : Byte) (s : State) : (s.accept c).frMaxRetry = s.frMaxRetry := rfl
@[simp] theorem accept_rxq (c : Byte) (s : State) : (s.accept c).rxq = s.rxq := rfl
@[simp] theorem accept_txq (c : Byte) (s : State) : (s.accept c).txq = s.txq := rfl
@[simp] theorem accept_txlog (c : Byte) (s : State) : (s.accept c).txlog = s.txlog := rfl
@[simp] theorem accept_ack (c : Byte) (s : State) : (s.accept c).ack = some .accepted := rfl
@[simp] theorem accept_inputs (c : Byte) (s : State) : (s.accept c).inputs = s.inputs := rfl

/-! ### `txPut` -/

@[simp] theorem txPut_status (d : List Byte) (s : State) : (txPut d s).status = s.status := rfl
@[simp] theorem txPut_cur (d : List Byte) (s : State) : (txPut d s).cur = s.cur := rfl
@[simp] theorem txPut_resU16 (d : List Byte) (s : State) : (txPut d s).resU16 = s.resU16 := rfl
@[simp] theorem txPut_resBool (d : List Byte) (s : State) : (txPut d s).resBool = s.resBool := rfl
@[simp] theorem txPut_resData (d : List Byte) (s : State) : (txPut d s).resData = s.resData := rfl
@[simp] theorem txPut_resAttempts (d : List Byte) (s : State) : (txPut d s).resAttempts = s.resAttempts := rfl
@[simp] theorem txPut_frState (d : List Byte) (s : State) : (txPut d s).frState = s.frState := rfl
@[simp] theorem txPut_frBuf (d : List Byte) (s : State) : (txPut d s).frBuf = s.frBuf := rfl
@[simp] theorem txPut_frScan (d : List Byte) (s : State) : (txPut d s).frScan = s.frScan := rfl
@[simp] theorem txPut_frOff (d : List Byte) (s : State) : (txPut d s).frOff = s.frOff := rfl
@[simp] theorem txPut_frLen (d : List Byte) (s : State) : (txPut d s).frLen = s.frLen := rfl
@[simp] theorem txPut_frElapsed (d : List Byte) (s : State) : (txPut d s).frElapsed = s.frElapsed := rfl
@[simp] theorem txPut_frAttempt (d : List Byte) (s : State) : (txPut d s).frAttempt = s.frAttempt := rfl
@[simp] theorem txPut_frTimeout (d : List Byte) (s : State) : (txPut d s).frTimeout = s.frTimeout := rfl
@[simp] theorem txPut_frMaxRetry (d : List Byte) (s : State) : (txPut d s).frMaxRetry = s.frMaxRetry := rfl
@[simp] theorem txPut_rxq (d : List Byte) (s : State) : (txPut d s).rxq = s.rxq := rfl
@[simp] theorem txPut_txq (d : List Byte) (s : State) : (txPut d s).txq = s.txq ++ d := rfl
@[simp] theorem txPut_txlog (d : List Byte) (s : State) : (txPut d s).txlog = s.txlog := rfl
@[simp] theorem txPut_ack (d : List Byte) (s : State) : (txPut d s).ack = s.ack := rfl
@[simp] theorem txPut_inputs (d : List Byte) (s : State) : (txPut d s).inputs = s.inputs := rfl

/-! ### `txDiscard` -/

@[simp] theorem txDiscard_status (s : State) : (txDiscard s).status = s.status := rfl
@[simp] theorem txDiscard_cur (s : State) : (txDiscard s).cur = s.cur := rfl
@[simp] theorem txDiscard_resU16 (s : State) : (txDiscard s).resU16 = s.resU16 := rfl
@[simp] theorem txDiscard_resBool (s : State) : (txDiscard s).resBool = s.resBool := rfl
@[simp] theorem txDiscard_resData (s : State) : (txDiscard s).resData = s.resData := rfl
@[simp] theorem txDiscard_resAttempts (s : State) : (txDiscard s).resAttempts = s.resAttempts := rfl
@[simp] theorem txDiscard_frState (s : State) : (txDiscard s).frState = s.frState := rfl
@[simp] theorem txDiscard_frBuf (s : State) : (txDiscard s).frBuf = s.frBuf := rfl
@[simp] theorem txDiscard_frScan (s : State) : (txDiscard s).frScan = s.frScan := rfl
@[simp] theorem txDiscard_frOff (s : State) : (txDiscard s).frOff = s.frOff := rfl
@[simp] theorem txDiscard_frLen (s : State) : (txDiscard s).frLen = s.frLen := rfl
@[simp] theorem txDiscard_frElapsed (s : State) : (txDiscard s).frElapsed = s.frElapsed := rfl
@[simp] theorem txDiscard_frAttempt (s : State) : (txDiscard s).frAttempt = s.frAttempt := rfl
@[simp] theorem txDiscard_frTimeout (s : State) : (txDiscard s).frTimeout = s.frTimeout := rfl
@[simp] theorem txDiscard_frMaxRetry (s : State) : (txDiscard s).frMaxRetry = s.frMaxRetry := rfl
@[simp] theorem txDiscard_rxq (s : State) : (txDiscard s).rxq = s.rxq := rfl
@[simp] theorem txDiscard_txq (s : State) : (txDiscard s).txq = [] := rfl
@[simp] theorem txDiscard_txlog (s : State) : (txDiscard s).txlog = s.txlog := rfl
@[simp] theorem txDiscard_ack (s : State) : (txDiscard s).ack = s.ack := rfl
@[simp] theorem txDiscard_inputs (s : State) : (txDiscard s).inputs = s.inputs := rfl

/-! ### `peerAppend` -/

@[simp] theorem peerAppend_status (d : List Byte) (s : State) : (peerAppend d s).status = s.status := rfl
@[simp] theorem peerAppend_cur (d : List Byte) (s : State) : (peerAppend d s).cur = s.cur := rfl
@[simp] theorem peerAppend_resU16 (d : List Byte) (s : State) : (peerAppend d s).resU16 = s.resU16 := rfl
@[simp] theorem peerAppend_resBool (d : List Byte) (s : State) : (peerAppend d s).resBool = s.resBool := rfl
@[simp] theorem peerAppend_resData (d : List Byte) (s : State) : (peerAppend d s).resData = s.resData := rfl
@[simp] theorem peerAppend_resAttempts (d : List Byte) (s : State) : (peerAppend d s).resAttempts = s.resAttempts := rfl
@[simp] theorem peerAppend_frState (d : List Byte) (s : State) : (peerAppend d s).frState = s.frState := rfl
@[simp] theorem peerAppend_frBuf (d : List Byte) (s : State) : (peerAppend d s).frBuf = s.frBuf := rfl
@[simp] theorem peerAppend_frScan (d : List Byte) (s : State) : (peerAppend d s).frScan = s.frScan := rfl
@[simp] theorem peerAppend_frOff (d : List Byte) (s : State) : (peerAppend d s).frOff = s.frOff := rfl
@[simp] theorem peerAppend_frLen (d : List Byte) (s : State) : (peerAppend d s).frLen = s.frLen := rfl
@[simp] theorem peerAppend_frElapsed (d : List Byte) (s : State) : (peerAppend d s).frElapsed = s.frElapsed := rfl
@[simp] theorem peerAppend_frAttempt (d : List Byte) (s : State) : (peerAppend d s).frAttempt = s.frAttempt := rfl
@[simp] theorem peerAppend_frTimeout (d : List Byte) (s : State) : (peerAppend d s).frTimeout = s.frTimeout := rfl
@[simp] theorem peerAppend_frMaxRetry (d : List Byte) (s : State) : (peerAppend d s).frMaxRetry = s.frMaxRetry := rfl
@[simp] theorem peerAppend_rxq (d : List Byte) (s : State) : (peerAppend d s).rxq = s.rxq ++ d := rfl
@[simp] theorem peerAppend_txq (d : List Byte) (s : State) : (peerAppend d s).txq = s.txq := rfl
@[simp] theorem peerAppend_txlog (d : List Byte) (s : State) : (peerAppend d s).txlog = s.txlog := rfl
@[simp] theorem peerAppend_ack (d : List Byte) (s : State) : (peerAppend d s).ack = s.ack := rfl
@[simp] theorem peerAppend_inputs (d : List Byte) (s : State) : (peerAppend d s).inputs = s.inputs := rfl

/-! ### `drain` -/

@[simp] theorem drain_status (s : State) : (drain s).status = s.status := rfl
@[simp] theorem drain_cur (s : State) : (drain s).cur = s.cur := rfl
@[simp] theorem drain_resU16 (s : State) : (drain s).resU16 = s.resU16 := rfl
@[simp] theorem drain_resBool (s : State) : (drain s).resBool = s.resBool := rfl
@[simp] theorem drain_resData (s : State) : (drain s).resData = s.resData := rfl
@[simp] theorem drain_resAttempts (s : State) : (drain s).resAttempts = s.resAttempts := rfl
@[simp] theorem drain_frState (s : State) : (drain s).frState = s.frState := rfl
@[simp] theorem drain_frBuf (s : State) : (drain s).frBuf = s.frBuf ++ s.rxq := rfl
@[simp] theorem drain_frScan (s : State) : (drain s).frScan = s.frScan := rfl
@[simp] theorem drain_frOff (s : State) : (drain s).frOff = s.frOff := rfl
@[simp] theorem drain_frLen (s : State) : (drain s).frLen = s.frLen := rfl
@[simp] theorem drain_frElapsed (s : State) : (drain s).frElapsed = s.frElapsed := rfl
@[simp] theorem drain_frAttempt (s : State) : (drain s).frAttempt = s.frAttempt := rfl
@[simp] theorem drain_frTimeout (s : State) : (drain s).frTimeout = s.frTimeout := rfl
@[simp] theorem drain_frMaxRetry (s : State) : (drain s).frMaxRetry = s.frMaxRetry := rfl
@[simp] theorem drain_rxq (s : State) : (drain s).rxq = [] := rfl
@[simp] theorem drain_txq (s : State) : (drain s).txq = s.txq := rfl
@[simp] theorem drain_txlog (s : State) : (drain s).txlog = s.txlog := rfl
@[simp] theorem drain_ack (s : State) : (drain s).ack = s.ack := rfl
@[simp] theorem drain_inputs (s : State) : (drain s).inputs = s.inputs := rfl

/-! ### `startAttempt` -/

@[simp] theorem startAttempt_status (s : State) : (startAttempt s).status = s.status := rfl
@[simp] theorem startAttempt_cur (s : State) : (startAttempt s).cur = s.cur := rfl
@[simp] theorem startAttempt_resU16 (s : State) : (startAttempt s).resU16 = s.resU16 := rfl
@[simp] theorem startAttempt_resBool (s : State) : (startAttempt s).resBool = s.resBool := rfl
@[simp] theorem startAttempt_resData (s : State) : (startAttempt s).resData = s.resData := rfl
@[simp] theorem startAttempt_resAttempts (s : State) : (startAttempt s).resAttempts = s.resAttempts := rfl
@[simp] theorem startAttempt_frState (s : State) : (startAttempt s).frState = .searchingHeader := rfl
@[simp] theorem startAttempt_frBuf (s : State) : (startAttempt s).frBuf = [] := rfl
@[simp] theorem startAttempt_frScan (s : State) : (startAttempt s).frScan = 0 := rfl
@[simp] theorem startAttempt_frOff (s : State) : (startAttempt s).frOff = 0 := rfl
@[simp] theorem startAttempt_frLen (s : State) : (startAttempt s).frLen = 0 := rfl
@[simp] theorem startAttempt_frElapsed (s : State) : (startAttempt s).frElapsed = 0 := rfl
@[simp] theorem startAttempt_frAttempt (s : State) : (startAttempt s).frAttempt = s.frAttempt := rfl
@[simp] theorem startAttempt_frTimeout (s : State) : (startAttempt s).frTimeout = s.frTimeout := rfl
@[simp] theorem startAttempt_frMaxRetry (s : State) : (startAttempt s).frMaxRetry = s.frMaxRetry := rfl
@[simp] theorem startAttempt_rxq (s : State) : (startAttempt s).rxq = s.rxq := rfl
@[simp] theorem startAttempt_txq (s : State) : (startAttempt s).txq = s.txq := rfl
@[simp] theorem startAttempt_txlog (s : State) : (startAttempt s).txlog = s.txlog := rfl
@[simp] theorem startAttempt_ack (s : State) : (startAttempt s).ack = s.ack := rfl
@[simp] theorem startAttempt_inputs (s : State) : (startAttempt s).inputs = s.inputs := rfl

/-! ### `warmReset` -/

@[simp] theorem warmReset_status (s : State) : (warmReset s).status = 0 := rfl
@[simp] theorem warmReset_cur (s : State) : (warmReset s).cur = 0 := rfl
@[simp] theorem warmReset_resU16 (s : State) : (warmReset s).resU16 = 0 := rfl
@[simp] theorem warmReset_resBool (s : State) : (warmReset s).resBool = 0 := rfl
@[simp] theorem warmReset_resData (s : State) : (warmReset s).resData = [] := rfl
@[simp] theorem warmReset_resAttempts (s : State) : (warmReset s).resAttempts = 0 := rfl
@[simp] theorem warmReset_frState (s : State) : (warmReset s).frState = .idle := rfl
@[simp] theorem warmReset_frBuf (s : State) : (warmReset s).frBuf = [] := rfl
@[simp] theorem warmReset_frScan (s : State) : (warmReset s).frScan = 0 := rfl
@[simp] theorem warmReset_frOff (s : State) : (warmReset s).frOff = 0 := rfl
@[simp] theorem warmReset_frLen (s : State) : (warmReset s).frLen = 0 := rfl
@[simp] theorem warmReset_frElapsed (s : State) : (warmReset s).frElapsed = 0 := rfl
@[simp] theorem warmReset_frAttempt (s : State) : (warmReset s).frAttempt = 0 := rfl
@[simp] theorem warmReset_frTimeout (s : State) : (warmReset s).frTimeout = 0 := rfl
@[simp] theorem warmReset_frMaxRetry (s : State) : (warmReset s).frMaxRetry = 0 := rfl
@[simp] theorem warmReset_rxq (s : State) : (warmReset s).rxq = s.rxq := rfl
@[simp] theorem warmReset_txq (s : State) : (warmReset s).txq = s.txq := rfl
@[simp] theorem warmReset_txlog (s : State) : (warmReset s).txlog = s.txlog := rfl
@[simp] theorem warmReset_ack (s : State) : (warmReset s).ack = s.ack := rfl
@[simp] theorem warmReset_inputs (s : State) : (warmReset s).inputs = s.inputs := rfl

/-! ### The STATUS fields -/

@[simp] theorem err_finish (e : ErrKind) (s : State) : (s.finish e).err = e.code := by simp [State.err]
@[simp] theorem busy_finish (e : ErrKind) (s : State) : (s.finish e).busy = false := by simp [State.busy]
@[simp] theorem done_finish (e : ErrKind) (s : State) : (s.finish e).done = true := by simp [State.done]
@[simp] theorem err_raise (k : ErrKind) (s : State) : (s.raise k).err = k.code := by simp [State.err]
@[simp] theorem busy_raise (k : ErrKind) (s : State) : (s.raise k).busy = false := by simp [State.busy]
@[simp] theorem done_raise (k : ErrKind) (s : State) : (s.raise k).done = true := by simp [State.done]
@[simp] theorem err_accept (c : Byte) (s : State) : (s.accept c).err = 0 := by simp [State.err]
@[simp] theorem busy_accept (c : Byte) (s : State) : (s.accept c).busy = s.busy := by simp [State.busy]
@[simp] theorem done_accept (c : Byte) (s : State) : (s.accept c).done = false := by simp [State.done]
@[simp] theorem busy_drain (s : State) : (drain s).busy = s.busy := rfl
@[simp] theorem busy_startAttempt (s : State) : (startAttempt s).busy = s.busy := rfl
@[simp] theorem busy_peerAppend (d : List Byte) (s : State) : (peerAppend d s).busy = s.busy := rfl
@[simp] theorem busy_warmReset (s : State) : (warmReset s).busy = false := by simp [State.busy, statusBusy]

/-- Reset is the summary of R40. -/
theorem reset_eq : State.reset = State.launch [] [] [] := rfl

end Sys2Proof.Machine
end

