-- ==== Sys2Proof/Laws/FrameReceiver.lean ====
section
/-! SUPPORT. What a poll can do, part by part (42_frame_receiver.md R163 to R167). -/

namespace Sys2Proof.Machine

/-- The search of R165 answers a header at or after FR_SCAN, and the first such one. -/
theorem headerIndex_eq_some {bs : List Byte} {i : Nat} (h : headerIndex bs = some i) :
    bs[i]? = some Config.hdr1 ∧ bs[i + 1]? = some Config.hdr2 := by
  induction bs generalizing i with
  | nil => simp [headerIndex] at h
  | cons a r ih =>
    match r, h with
    | b :: r, h =>
      simp only [headerIndex] at h
      split at h
      · next hab => cases h; simp [hab]
      · obtain ⟨j, hj, rfl⟩ := Option.map_eq_some_iff.1 h
        simpa using ih hj

/-- Where the search finds nothing, no header stands anywhere. -/
theorem headerIndex_eq_none {bs : List Byte} (h : headerIndex bs = none) (i : Nat) :
    ¬(bs[i]? = some Config.hdr1 ∧ bs[i + 1]? = some Config.hdr2) := by
  induction bs generalizing i with
  | nil => simp
  | cons a r ih =>
    match r, h with
    | [], _ => cases i <;> simp
    | b :: r, h =>
      simp only [headerIndex] at h
      split at h
      · cases h
      · next hab =>
        cases i with
        | zero => simpa using hab
        | succ i => simpa using ih (Option.map_eq_none_iff.1 h) i

/-- The header found is the first. -/
theorem headerIndex_least {bs : List Byte} {i j : Nat} (h : headerIndex bs = some i) (hj : j < i) :
    ¬(bs[j]? = some Config.hdr1 ∧ bs[j + 1]? = some Config.hdr2) := by
  induction bs generalizing i j with
  | nil => simp [headerIndex] at h
  | cons a r ih =>
    match r, h with
    | b :: r, h =>
      simp only [headerIndex] at h
      split at h
      · cases h; omega
      · next hab =>
        obtain ⟨k, hk, rfl⟩ := Option.map_eq_some_iff.1 h
        cases j with
        | zero => simpa using hab
        | succ j => simpa using ih hk (by omega)

/-- What one state becomes another by when only the search registers move: FR_SCAN, FR_OFF, FR_LEN and FR_STATE. -/
def searchUpdate (s : State) (scan off : Nat) (len : Byte) (st : FrState) : State :=
  { s with frScan := scan, frOff := off, frLen := len, frState := st }

/-- A turn moves the search registers and nothing else (R165). -/
theorem turn_frame (s : State) :
    ∃ scan off len st, turn s = .again (searchUpdate s scan off len st) ∨
      turn s = .stop (searchUpdate s scan off len st) := by
  unfold turn turnSearching turnLength turnBody
  split
  · split
    · next i _ => exact ⟨s.frScan, i, s.frLen, _, .inl rfl⟩
    · exact ⟨_, s.frOff, s.frLen, s.frState, .inr rfl⟩
  · split
    · next l _ =>
      split
      · exact ⟨s.frOff + 1, s.frOff, s.frLen, _, .inl rfl⟩
      · exact ⟨s.frScan, s.frOff, l, _, .inl rfl⟩
    · exact ⟨s.frScan, s.frOff, s.frLen, s.frState, .inr rfl⟩
  · split
    · exact ⟨s.frScan, s.frOff, s.frLen, _, .inr rfl⟩
    · exact ⟨s.frScan, s.frOff, s.frLen, s.frState, .inr rfl⟩
  all_goals exact ⟨s.frScan, s.frOff, s.frLen, s.frState, .inr rfl⟩

/-- So does any number of turns. -/
theorem advanceLoop_frame (n : Nat) (s : State) :
    ∃ scan off len st, advanceLoop n s = searchUpdate s scan off len st := by
  induction n generalizing s with
  | zero => exact ⟨s.frScan, s.frOff, s.frLen, s.frState, rfl⟩
  | succ n ih =>
    obtain ⟨a, b, c, d, h | h⟩ := turn_frame s
    · obtain ⟨a', b', c', d', h'⟩ := ih (searchUpdate s a b c d)
      exact ⟨a', b', c', d', by simp only [advanceLoop, h, h']; rfl⟩
    · exact ⟨a, b, c, d, by simp only [advanceLoop, h]⟩

/-- `Advance()` moves FR_SCAN, FR_OFF, FR_LEN and FR_STATE and nothing else (R165). -/
theorem advance_frame (s : State) : ∃ scan off len st, advance s = searchUpdate s scan off len st :=
  advanceLoop_frame _ s

/-- What follows an advance (R163, R166, R167): completion, one more tick counted, the next attempt, or Timeout. -/
theorem conclude_cases (s : State) :
    (s.frState = .complete ∧ conclude s = complete s) ∨
    (s.frState ≠ .complete ∧
      let c : State := { s with frElapsed := s.frElapsed + 1 }
      (expired c = false ∧ conclude s = c) ∨
      (expired c = true ∧ mayRetry c = true ∧ conclude s = retry c) ∨
      (expired c = true ∧ mayRetry c = false ∧ conclude s = fail c)) := by
  unfold conclude countTime afterCount
  split
  · next h => exact .inl ⟨h, rfl⟩
  · next h =>
    refine .inr ⟨h, ?_⟩
    split
    · next he =>
      split
      · next hm => exact .inr (.inl ⟨he, hm, rfl⟩)
      · next hm => exact .inr (.inr ⟨he, by simpa using hm, rfl⟩)
    · next he => exact .inl ⟨by simpa using he, rfl⟩

/-- A TICK is a poll while BUSY and nothing otherwise (R163, R168). -/
theorem tick_cases (s : State) :
    (s.busy = false ∧ tick s = s) ∨ (s.busy = true ∧ tick s = conclude (advance (drain s))) := by
  unfold tick poll
  cases s.busy <;> simp

/-- RECEIVE after its acceptance: InvalidArgument for T = 0, else the first attempt starts (R161). -/
theorem runReceive_cases (t : U16) (r : Byte) (s : State) :
    (t = 0 ∧ runReceive t r s = s.raise .invalidArgument) ∨
      (t ≠ 0 ∧ runReceive t r s =
        { startAttempt { s with frTimeout := t, frMaxRetry := r, frAttempt := 1 } with
          status := setBusy true s.status }) := by
  unfold runReceive
  by_cases h : t = 0
  · exact .inl ⟨h, if_pos h⟩
  · exact .inr ⟨h, if_neg h⟩

end Sys2Proof.Machine
end

