-- ==== Sys2Proof/Laws/Ops.lean ====
section
/-! SUPPORT. One lemma for each shared operation that says all it can do. -/

namespace Sys2Proof.Machine

/-- Issuing a legal code never stops the machine: it is rejected with no other write, or accepted and run (R27). -/
theorem issue_eq_next {c : Byte} {run : State → State} {s t : State} (h : issue c run s = .next t) :
    (s.busy = true ∧ t = s.withAck .rejectedBusy) ∨ (s.busy = false ∧ t = run (s.accept c)) := by
  unfold issue at h
  split at h <;> cases h
  · next hb => exact .inl ⟨hb, rfl⟩
  · next hb => exact .inr ⟨by simpa using hb, rfl⟩

theorem issue_of_busy {c : Byte} {run : State → State} {s : State} (h : s.busy = true) :
    issue c run s = .next (s.withAck .rejectedBusy) := by simp [issue, h]

theorem issue_of_idle {c : Byte} {run : State → State} {s : State} (h : s.busy = false) :
    issue c run s = .next (run (s.accept c)) := by simp [issue, h]

/-- An illegal code writes nothing but the HOST's ACK (R27, R83). -/
theorem issueIllegal_eq (s : State) :
    issueIllegal s = s.withAck (if s.busy then .rejectedBusy else .rejectedIllegal) := by
  unfold issueIllegal; split <;> rfl

/-- The operand check raises InvalidArgument for an over-long operand and otherwise runs the rule (R81, R205). -/
theorem checkOperands_cases (ops : List (List Byte)) (run : State → State) (s : State) :
    ((∃ d ∈ ops, Config.maxOperandBytes < d.length) ∧ checkOperands ops run s = s.raise .invalidArgument) ∨
      ((∀ d ∈ ops, d.length ≤ Config.maxOperandBytes) ∧ checkOperands ops run s = run s) := by
  unfold checkOperands
  by_cases h : ops.any overLong = true
  · refine .inl ⟨?_, by simp [h]⟩
    obtain ⟨d, hd, ho⟩ := List.any_eq_true.1 h
    exact ⟨d, hd, (overLong_iff d).1 ho⟩
  · refine .inr ⟨fun d hd => ?_, by simp [h]⟩
    rw [← overLong_eq_false_iff]
    simpa using fun ho : overLong d = true => h (List.any_eq_true.2 ⟨d, hd, ho⟩)

/-- WIRE moves one byte or, with TXQ empty, none (R38). -/
theorem wireStep_cases (s : State) :
    (s.txq = [] ∧ wireStep s = s) ∨
      ∃ b r, s.txq = b :: r ∧ wireStep s = { s with txq := r, txlog := s.txlog ++ [b] } := by
  cases h : s.txq with
  | nil => exact .inl ⟨rfl, by simp [wireStep, h]⟩
  | cons b r => exact .inr ⟨b, r, rfl, by simp [wireStep, h]⟩

/-- SEND's effect on the channel is on TXQ alone: discard or not, then append (R133). -/
theorem sendBytes_eq (flush : Bool) (d : List Byte) (s : State) :
    sendBytes flush d s = { s with txq := (if sendDiscards flush d then [] else s.txq) ++ d } := by
  unfold sendBytes; split <;> rfl

/-- Which operands make SEND discard the queue (R133). -/
theorem sentOpcode_eq_some {d : List Byte} {op : Byte} :
    sentOpcode d = some op ↔ d[0]? = some Config.hdr1 ∧ d[1]? = some Config.hdr2 ∧ d[3]? = some op := by
  match d with
  | [] => simp [sentOpcode]
  | [_] => simp [sentOpcode]
  | [_, _] => simp [sentOpcode]
  | [_, _, _] => simp [sentOpcode]
  | b0 :: b1 :: b2 :: b3 :: r =>
    simp only [sentOpcode]
    split
    · next h => simp [h]
    · next h => simp_all

/-- Every command is issued by its own code and runs its own rule; a wire frame is appended to RXQ. -/
theorem exec_eq (i : Instr) (s : State) :
    exec i s =
      match i with
      | .crc d => issue codeCrc (runCrc d) s
      | .crcAppend d => issue codeCrcAppend (runCrcAppend d) s
      | .crcVerify c d => issue codeCrcVerify (runCrcVerify c d) s
      | .crcVerifyBuf b d => issue codeCrcVerifyBuf (runCrcVerifyBuf b d) s
      | .buildWrite a d => issue codeBuildWrite (runBuildWrite a d) s
      | .buildRead a w => issue codeBuildRead (runBuildRead a w) s
      | .send d => issue codeSend (runSend d) s
      | .receive t r => issue codeReceive (runReceive t r) s
      | .frameWrite len addr data chk => .next (peerAppend (encode (.frameWrite len addr data chk)) s)
      | .frameRead addr bc chk => .next (peerAppend (encode (.frameRead addr bc chk)) s) := by
  cases i <;> rfl

end Sys2Proof.Machine
end

