-- ==== Sys2Proof/Laws/PerInstr.lean ====
section
/-! SUPPORT. Facts about every instruction as syntax, one lemma for each constructor. -/

namespace Sys2Proof.Laws

/-- The first byte of an encoding tells a frame (0x5A, 30_encoding.md R70) from a command (its code, R80). -/
def FirstByte.Statement (i : Instr) : Prop :=
  ∃ b r, encode i = b :: r ∧ if i.isFrame then b = Config.hdr1 else b ∈ legalCodes

theorem FirstByte.crc (d : List Byte) : FirstByte.Statement (.crc d) := ⟨_, _, rfl, by simp [Instr.isFrame, legalCodes]⟩
theorem FirstByte.crcAppend (d : List Byte) : FirstByte.Statement (.crcAppend d) := ⟨_, _, rfl, by simp [Instr.isFrame, legalCodes]⟩
theorem FirstByte.crcVerify (c : U16) (d : List Byte) : FirstByte.Statement (.crcVerify c d) := ⟨_, _, rfl, by simp [Instr.isFrame, legalCodes]⟩
theorem FirstByte.crcVerifyBuf (b d : List Byte) : FirstByte.Statement (.crcVerifyBuf b d) := ⟨_, _, rfl, by simp [Instr.isFrame, legalCodes]⟩
theorem FirstByte.buildWrite (a : U16) (d : List Byte) : FirstByte.Statement (.buildWrite a d) := ⟨_, _, rfl, by simp [Instr.isFrame, legalCodes]⟩
theorem FirstByte.buildRead (a : U16) (w : Byte) : FirstByte.Statement (.buildRead a w) := ⟨_, _, rfl, by simp [Instr.isFrame, legalCodes]⟩
theorem FirstByte.send (d : List Byte) : FirstByte.Statement (.send d) := ⟨_, _, rfl, by simp [Instr.isFrame, legalCodes]⟩
theorem FirstByte.receive (t : U16) (r : Byte) : FirstByte.Statement (.receive t r) := ⟨_, _, rfl, by simp [Instr.isFrame, legalCodes]⟩
theorem FirstByte.frameWrite (len : Byte) (addr : U16) (data : List Byte) (chk : U16) :
    FirstByte.Statement (.frameWrite len addr data chk) := ⟨_, _, rfl, by simp [Instr.isFrame]⟩
theorem FirstByte.frameRead (addr : U16) (bc : Byte) (chk : U16) : FirstByte.Statement (.frameRead addr bc chk) :=
  ⟨_, _, rfl, by simp [Instr.isFrame]⟩

end Sys2Proof.Laws
end

