-- ==== Sys2Proof/Laws/Search.lean ====
section
/-! SUPPORT. The header search of a poll against the stream that it searches (42_frame_receiver.md R165, R170): what the
search knows before a turn, and what it knows when it returns. -/

namespace Sys2Proof.Machine

/-- `5A A5` stands at index `i`. -/
def PairAt (b : List Byte) (i : Nat) : Prop := b[i]? = some Config.hdr1 ∧ b[i + 1]? = some Config.hdr2

/-- If `5A A5` stands at index `i`, a length byte below 5 follows it, so that R165 abandons it. -/
def ShortAt (b : List Byte) (i : Nat) : Prop := PairAt b i → ∃ len, b[i + 2]? = some len ∧ len.toNat < 5

theorem pairAt_lt {b : List Byte} {i : Nat} (h : PairAt b i) : i + 1 < b.length :=
  (List.getElem?_eq_some_iff.1 h.2).1

theorem headerAt_iff (b : List Byte) (i : Nat) :
    headerAt b i = true ↔ PairAt b i ∧ ∃ len, b[i + 2]? = some len ∧ 5 ≤ len.toNat := by
  unfold headerAt PairAt
  cases b[i]? <;> cases b[i + 1]? <;> cases b[i + 2]? <;> simp [Config.minLen, and_assoc]

theorem headerAt_lt {b : List Byte} {i : Nat} (h : headerAt b i = true) : i + 2 < b.length := by
  obtain ⟨_, _, h, _⟩ := (headerAt_iff b i).1 h
  exact (List.getElem?_eq_some_iff.1 h).1

/-- Bytes that arrive later do not change whether a legal header stands at an index whose length byte is there. -/
theorem headerAt_append {b q : List Byte} {i : Nat} (hi : i + 2 < b.length) : headerAt (b ++ q) i = headerAt b i := by
  unfold headerAt
  rw [List.getElem?_append_left (by omega), List.getElem?_append_left (by omega), List.getElem?_append_left hi]

theorem ShortAt.not_headerAt {b : List Byte} {i : Nat} (h : ShortAt b i) : headerAt b i = false := by
  by_contra hc
  obtain ⟨p, _, hl, h5⟩ := (headerAt_iff b i).1 (by simpa using hc)
  obtain ⟨_, hl', h4⟩ := h p
  rw [hl] at hl'; cases hl'; omega

theorem firstHeader_eq_some {b : List Byte} {i : Nat} :
    firstHeader b = some i ↔ headerAt b i = true ∧ ∀ j < i, headerAt b j = false := by
  unfold firstHeader
  rw [List.find?_range_eq_some]
  constructor
  · rintro ⟨h, _, hj⟩
    exact ⟨h, fun j hji => by simpa using hj j hji⟩
  · rintro ⟨h, hj⟩
    have := headerAt_lt h
    exact ⟨h, by simp; omega, fun j hji => by simp [hj j hji]⟩

theorem firstHeader_eq_none {b : List Byte} : firstHeader b = none ↔ ∀ i, headerAt b i = false := by
  unfold firstHeader
  rw [List.find?_eq_none]
  constructor
  · intro h i
    by_cases hi : headerAt b i = true
    · have := headerAt_lt hi
      exact absurd hi (h i (by simp; omega))
    · simpa using hi
  · intro h i _; simp [h i]

/-- What the search knows before a turn: every header below FR_SCAN, or below FR_OFF, is short, and FR_OFF and FR_LEN are
those of the header found. -/
def SearchReady (s : State) : Prop :=
  match s.frState with
  | .searchingHeader => (∀ j < s.frScan, ShortAt s.frBuf j) ∧ s.frScan ≤ s.frBuf.length - 1
  | .headerFoundAwaitingLength => (∀ j < s.frOff, ShortAt s.frBuf j) ∧ PairAt s.frBuf s.frOff
  | .accumulatingBody => firstHeader s.frBuf = some s.frOff ∧ s.frBuf[s.frOff + 2]? = some s.frLen
  | .idle => False
  | .complete => False
  | .failed => False

/-- What the search knows when it returns. -/
def SearchDone (s : State) : Prop :=
  match s.frState with
  | .searchingHeader => (∀ j, ShortAt s.frBuf j) ∧ s.frScan = s.frBuf.length - 1
  | .headerFoundAwaitingLength =>
    (∀ j < s.frOff, ShortAt s.frBuf j) ∧ PairAt s.frBuf s.frOff ∧ s.frOff + 2 = s.frBuf.length
  | .accumulatingBody =>
    firstHeader s.frBuf = some s.frOff ∧ s.frBuf[s.frOff + 2]? = some s.frLen ∧ s.frBuf.length < frameEnd s
  | .complete =>
    firstHeader s.frBuf = some s.frOff ∧ s.frBuf[s.frOff + 2]? = some s.frLen ∧ frameEnd s ≤ s.frBuf.length
  | .idle => False
  | .failed => False

/-- A bound on the turns still to come. -/
def turnsLeft (s : State) : Nat :=
  match s.frState with
  | .searchingHeader => 2 * (s.frBuf.length - s.frScan) + 2
  | .headerFoundAwaitingLength => 2 * (s.frBuf.length - s.frOff) + 1
  | _ => 1

/-- Where the search from FR_SCAN passes an index, no header stands there. -/
theorem shortAt_of_drop {b : List Byte} {scan j : Nat} (hj : scan ≤ j)
    (h : ¬((b.drop scan)[j - scan]? = some Config.hdr1 ∧ (b.drop scan)[j - scan + 1]? = some Config.hdr2)) :
    ShortAt b j := by
  intro p
  refine absurd ?_ h
  simp only [List.getElem?_drop]
  rw [show scan + (j - scan) = j by omega, show scan + (j - scan + 1) = j + 1 by omega]
  exact p

theorem turnSearching_cases (s : State) (hs : s.frState = .searchingHeader) (h : SearchReady s) :
    (∃ t, turnSearching s = .again t ∧ SearchReady t ∧ turnsLeft t < turnsLeft s) ∨
      ∃ t, turnSearching s = .stop t ∧ SearchDone t := by
  simp only [SearchReady, hs] at h
  obtain ⟨hshort, hscan⟩ := h
  have short {j : Nat} (hn : s.frScan ≤ j → _) : ShortAt s.frBuf j :=
    if hj : j < s.frScan then hshort j hj else shortAt_of_drop (Nat.le_of_not_lt hj) (hn (Nat.le_of_not_lt hj))
  unfold turnSearching findHeader
  cases hh : headerIndex (s.frBuf.drop s.frScan) with
  | some k =>
    have p := headerIndex_eq_some hh
    simp only [List.getElem?_drop] at p
    refine .inl ⟨_, rfl, ⟨fun j hj => ?_, p.1, by simpa [Nat.add_assoc] using p.2⟩, ?_⟩
    · change j < s.frScan + k at hj
      exact short fun _ => headerIndex_least hh (by omega)
    · simp [turnsLeft, hs]; omega
  | none =>
    refine .inr ⟨_, rfl, ?_⟩
    simp only [SearchDone, hs]
    exact ⟨fun j => short fun _ => headerIndex_eq_none hh _, by split <;> omega⟩

theorem turnLength_cases (s : State) (hs : s.frState = .headerFoundAwaitingLength) (h : SearchReady s) :
    (∃ t, turnLength s = .again t ∧ SearchReady t ∧ turnsLeft t < turnsLeft s) ∨
      ∃ t, turnLength s = .stop t ∧ SearchDone t := by
  simp only [SearchReady, hs] at h
  obtain ⟨hshort, hpair⟩ := h
  unfold turnLength
  cases hl : s.frBuf[s.frOff + 2]? with
  | none =>
    refine .inr ⟨_, rfl, ?_⟩
    have := pairAt_lt hpair
    have := List.getElem?_eq_none_iff.1 hl
    simp only [SearchDone, hs]
    exact ⟨hshort, hpair, by omega⟩
  | some len =>
    have hlt := (List.getElem?_eq_some_iff.1 hl).1
    by_cases h5 : len.toNat < Config.minLen
    · refine .inl ⟨_, if_pos h5, ⟨fun j hj => ?_, ?_⟩, ?_⟩
      · change j < s.frOff + 1 at hj
        rcases Nat.lt_succ_iff_lt_or_eq.1 hj with hj | rfl
        · exact hshort j hj
        · exact fun _ => ⟨len, hl, h5⟩
      · show s.frOff + 1 ≤ s.frBuf.length - 1; omega
      · simp [turnsLeft, hs]; omega
    · refine .inl ⟨_, if_neg h5, ⟨?_, hl⟩, ?_⟩
      · exact firstHeader_eq_some.2
          ⟨(headerAt_iff _ _).2 ⟨hpair, len, hl, by simpa using h5⟩, fun j hj => (hshort j hj).not_headerAt⟩
      · simp [turnsLeft, hs]; omega

/-- A turn that is ready leaves the search ready with fewer turns left, or done. -/
theorem turn_cases (s : State) (h : SearchReady s) :
    (∃ t, turn s = .again t ∧ SearchReady t ∧ turnsLeft t < turnsLeft s) ∨ ∃ t, turn s = .stop t ∧ SearchDone t := by
  unfold turn
  split
  · next hs => exact turnSearching_cases s hs h
  · next hs => exact turnLength_cases s hs h
  · next hs =>
    simp only [SearchReady, hs] at h
    refine .inr ⟨_, rfl, ?_⟩
    split
    · next hc => exact ⟨h.1, h.2, hc⟩
    · next hc => simp only [SearchDone, hs]; exact ⟨h.1, h.2, by omega⟩
  all_goals next hs => simp only [SearchReady, hs] at h

theorem advanceLoop_searchDone (n : Nat) (s : State) (h : SearchReady s) (hn : turnsLeft s ≤ n) :
    SearchDone (advanceLoop n s) := by
  induction n generalizing s with
  | zero => unfold turnsLeft at hn; split at hn <;> omega
  | succ n ih =>
    rcases turn_cases s h with ⟨t, ht, hr, hlt⟩ | ⟨t, ht, hd⟩
    · simp only [advanceLoop, ht]; exact ih t hr (by omega)
    · simp only [advanceLoop, ht]; exact hd

/-- `Advance()` carries a ready search to its end (R165). -/
theorem advance_searchDone (s : State) (h : SearchReady s) : SearchDone (advance s) :=
  advanceLoop_searchDone _ s h (by unfold turnsLeft; split <;> omega)

/-- A header that is not legal where its length byte is there is short, whatever arrives after it. -/
theorem shortAt_append {b q : List Byte} {j : Nat} (h : headerAt b j = false) (hj : j + 2 < b.length) :
    ShortAt (b ++ q) j := by
  intro p
  have hl : (b ++ q)[j + 2]? = some b[j + 2] := by rw [List.getElem?_append_left hj]; simp [hj]
  refine ⟨_, hl, ?_⟩
  by_contra h5
  have := (headerAt_iff (b ++ q) j).2 ⟨p, _, hl, by omega⟩
  rw [headerAt_append hj, h] at this
  cases this

/-- Between polls the invariant says that the search is ready, whatever a drain appends (R164, R165). -/
theorem drain_searchReady (s : State) (h : Inv s) (hb : s.busy = true) : SearchReady (drain s) := by
  have later {i : Nat} {x : Byte} (hx : s.frBuf[i]? = some x) : (s.frBuf ++ s.rxq)[i]? = some x := by
    rw [List.getElem?_append_left (List.getElem?_eq_some_iff.1 hx).1]; exact hx
  rcases h.active hb with hs | hs | hs
  · obtain ⟨hscan, hnone, hend⟩ := h.searching hs
    simp only [SearchReady, drain_frState, hs, drain_frBuf, drain_frScan, hscan]
    refine ⟨fun j hj => ?_, by simp; omega⟩
    by_cases hj2 : j + 2 < s.frBuf.length
    · exact shortAt_append (firstHeader_eq_none.1 hnone j) hj2
    · rintro ⟨p0, p1⟩
      rw [List.getElem?_append_left (by omega)] at p0 p1
      refine absurd (List.ext_getElem? fun i => ?_) hend
      rw [List.getElem?_drop, show s.frBuf.length - 2 = j by omega]
      match i with
      | 0 => simpa using p0
      | 1 => simpa using p1
      | i + 2 => rw [List.getElem?_eq_none (by omega)]; simp
  · obtain ⟨hlen, h0, h1, hnone⟩ := h.awaiting hs
    simp only [SearchReady, drain_frState, hs, drain_frBuf, drain_frOff]
    exact ⟨fun j hj => shortAt_append (firstHeader_eq_none.1 hnone j) (by omega), later h0, later h1⟩
  · obtain ⟨hfirst, hlen, _⟩ := h.accumulating hs
    simp only [SearchReady, drain_frState, hs, drain_frBuf, drain_frOff, drain_frLen]
    refine ⟨?_, later hlen⟩
    rw [firstHeader_eq_some] at hfirst ⊢
    have := headerAt_lt hfirst.1
    exact ⟨by rw [headerAt_append this]; exact hfirst.1,
      fun j hj => by rw [headerAt_append (by omega)]; exact hfirst.2 j hj⟩

/-- A search that is done without COMPLETE has a stream without a whole frame (R170). -/
theorem SearchDone.streamFrame_eq_none {s : State} (h : SearchDone s) (hc : s.frState ≠ .complete) :
    streamFrame s.frBuf = none := by
  unfold SearchDone at h
  split at h <;> rename_i hs
  · simp [streamFrame, firstHeader_eq_none.2 fun j => (h.1 j).not_headerAt]
  · have hnone : firstHeader s.frBuf = none := firstHeader_eq_none.2 fun j => by
      by_cases hj : j < s.frOff
      · exact (h.1 j hj).not_headerAt
      · by_contra hh
        have := headerAt_lt (by simpa using hh : headerAt s.frBuf j = true)
        omega
    simp [streamFrame, hnone]
  · have := h.2.2
    simp only [streamFrame, h.1, h.2.1, frameEnd] at *
    rw [if_neg (by omega)]
  · exact absurd hs hc
  all_goals exact h.elim

/-- A search that is done with COMPLETE has found the stream's frame (R170). -/
theorem SearchDone.streamFrame_eq_some {s : State} (h : SearchDone s) (hc : s.frState = .complete) :
    streamFrame s.frBuf = some (slice s.frBuf s.frOff (frameEnd s)) := by
  simp only [SearchDone, hc] at h
  simp only [streamFrame, h.1, h.2.1]
  exact if_pos h.2.2

/-- A tick of a running RECEIVE, in the states of the invariant: the drained buffer is searched to its end, and what
follows is decided by the receiver state alone (R163). -/
theorem tick_eq_conclude (s : State) (h : Inv s) (hb : s.busy = true) :
    ∃ scan off len st, SearchDone (searchUpdate (drain s) scan off len st) ∧
      tick s = conclude (searchUpdate (drain s) scan off len st) := by
  obtain ⟨scan, off, len, st, e⟩ := advance_frame (drain s)
  refine ⟨scan, off, len, st, e ▸ advance_searchDone _ (drain_searchReady s h hb), ?_⟩
  rcases tick_cases s with ⟨hb', _⟩ | ⟨_, ht⟩
  · rw [hb] at hb'; cases hb'
  · rw [ht, e]

/-- The invariant speaks of LNK's registers only: two states with the same registers both meet it or neither does. -/
theorem Inv.of_sameRegisters {s t : State} (h : SameRegisters s t) (hi : Inv s) : Inv t := by
  obtain ⟨h1, h2, ⟨h3, h4, h5, h6⟩, ⟨g1, g2, g3, g4, g5, g6, g7, g8, g9⟩⟩ := h
  obtain ⟨⟩ := s
  obtain ⟨⟩ := t
  simp only at h1 h2 h3 h4 h5 h6 g1 g2 g3 g4 g5 g6 g7 g8 g9
  subst h1 h2 h3 h4 h5 h6 g1 g2 g3 g4 g5 g6 g7 g8 g9
  have cleared (hb) : Response _ 0 0 [] 0 := hi.cleared hb
  exact ⟨hi.reserved, hi.err, hi.cur, hi.busy, hi.fresh, hi.quiet, hi.active, hi.elapsed, hi.attempt, hi.running,
    fun hb => ⟨(cleared hb).1, (cleared hb).2, (cleared hb).3, (cleared hb).4⟩, hi.searching, hi.awaiting,
    hi.accumulating, hi.resData, hi.received, hi.timedOut⟩

end Sys2Proof.Machine
end

