-- ==== Sys2Proof/Laws/Step.lean ====
section
/-! SUPPORT. Everything one step can do, said once. -/

namespace Sys2Proof.Machine

/-- The ways in which `step` answers a next state. -/
inductive StepCase (s : State) : State → Prop where
  /-- No agent takes a step. -/
  | still : s.inputs = [] → StepCase s s
  /-- HOST issues a command (R27). -/
  | command {bs : List Byte} {es : List Event} {i : Instr} {t : State} : s.inputs = .issue bs :: es →
      decodeRecord bs = .ok i → exec i { s with inputs := es } = .next t → StepCase s t
  /-- HOST issues an illegal code (R83). -/
  | illegal {bs : List Byte} {es : List Event} {c : Byte} : s.inputs = .issue bs :: es →
      decodeRecord bs = .error (.illegalCode c) → StepCase s (issueIllegal { s with inputs := es })
  /-- PEER delivers a frame of the table (R37). -/
  | frame {bs : List Byte} {es : List Event} {i : Instr} {t : State} : s.inputs = .peer bs :: es →
      decodeFrame bs = .ok i → exec i { s with inputs := es } = .next t → StepCase s t
  /-- PEER delivers other bytes (R37). -/
  | arrive {bs : List Byte} {es : List Event} {x : DecodeError} : s.inputs = .peer bs :: es →
      decodeFrame bs = .error x → StepCase s (peerAppend bs { s with inputs := es })
  /-- WIRE takes a byte (R38). -/
  | wire {es : List Event} : s.inputs = .wire :: es → StepCase s (wireStep { s with inputs := es })
  /-- A tick passes (R163, R168). -/
  | tick {es : List Event} : s.inputs = .tick :: es → StepCase s (tick { s with inputs := es })
  /-- Reset is asserted (R230). -/
  | reset {es : List Event} : s.inputs = .reset :: es → StepCase s (warmReset { s with inputs := es })

/-- `step` answers a next state in no other way. -/
theorem step_cases {s t : State} (h : step s = .next t) : StepCase s t := by
  unfold step at h
  split at h
  · next hi => cases h; exact .still hi
  · next e es hi =>
    cases e with
    | issue bs =>
      simp only [fetch, fetchRecord] at h
      split at h
      · next hd => exact .command hi hd h
      · next hd => cases h; exact .illegal hi hd
      · cases h
    | peer bs =>
      simp only [fetch, fetchPeer] at h
      split at h
      · next hd => exact .frame hi hd h
      · next hd => cases h; exact .arrive hi hd
    | wire => cases h; exact .wire hi
    | tick => cases h; exact .tick hi
    | reset => cases h; exact .reset hi

/-- `step` stops only for bytes on the command port that are no whole record (R81). -/
theorem step_eq_fault {s : State} {f : Fault} (h : step s = .fault f) :
    ∃ bs es x, s.inputs = .issue bs :: es ∧ decodeRecord bs = .error x ∧ ∀ c, x ≠ .illegalCode c := by
  unfold step at h
  split at h
  · cases h
  · next e es hi =>
    have run (i : Instr) (s : State) : exec i s ≠ .fault f := by
      rw [exec_eq]; cases i <;> simp [issue] <;> split <;> simp
    cases e with
    | issue bs =>
      simp only [fetch, fetchRecord] at h
      split at h
      · exact absurd h (run _ _)
      · cases h
      · next x hx hd => exact ⟨bs, es, x, hi, hd, hx⟩
    | peer bs =>
      simp only [fetch, fetchPeer] at h
      split at h
      · exact absurd h (run _ _)
      · cases h
    | wire => cases h
    | tick => cases h
    | reset => cases h

end Sys2Proof.Machine
end

