-- ==== Sys2Proof/Tests/Slice0.lean ====
section
/-! SUPPORT. Tests of the model against the vectors of spec/95_test_vectors.md, the smoke test of WellFormed, and for each
statement with hypotheses a witness that meets them. -/

namespace Sys2Proof.Tests

open Machine

/-- The state after these agent steps, if every one answers a next state. -/
def after (es : List Event) (s : State) : Option State :=
  match runEvents es s with
  | .next t => some t
  | .fault _ => none
  | .refused _ => none

/-- `F`, the frame of V-FE-06. -/
def frameF : List Byte := [0x5A, 0xA5, 0x06, 0x83, 0x50, 0x00, 0x04, 0x28, 0x72]

/-- LNK at the start of an attempt of RECEIVE 2, 1, with these bytes in RXQ and these steps to come. -/
def receiving (rxq : List Byte) (es : List Event) : State :=
  { State.launch rxq [] es with
    status := 0x0010, cur := 0x20, frState := .searchingHeader, frAttempt := 1, frTimeout := 2, frMaxRetry := 1 }

/-! ### WellFormed refuses an ill-formed term for each of its checks -/

theorem too_long : seqFits (List.replicate 65536 0) = false := by rw [seqFits, List.length_replicate]; rfl

theorem test_wf_refuses_crc_too_long : (Instr.crc (List.replicate 65536 0)).wellFormed = false := too_long
theorem test_wf_refuses_append_too_long : (Instr.crcAppend (List.replicate 65536 0)).wellFormed = false := too_long
theorem test_wf_refuses_verify_too_long : (Instr.crcVerify 0 (List.replicate 65536 0)).wellFormed = false := too_long
theorem test_wf_refuses_buffer_too_long : (Instr.crcVerifyBuf (List.replicate 65536 0) []).wellFormed = false := by
  rw [Instr.wellFormed, too_long]; rfl
theorem test_wf_refuses_verify_buf_data_too_long :
    (Instr.crcVerifyBuf [] (List.replicate 65536 0)).wellFormed = false := by
  rw [Instr.wellFormed, too_long]; rfl
theorem test_wf_refuses_write_too_long : (Instr.buildWrite 0 (List.replicate 65536 0)).wellFormed = false := too_long
theorem test_wf_refuses_send_too_long : (Instr.send (List.replicate 65536 0)).wellFormed = false := too_long
/-- V-FE-02 with length byte 6 instead of 5 (R72). -/
theorem test_wf_refuses_write_frame_length : (Instr.frameWrite 6 0 [] 0xE8D1).wellFormed = false := by decide
/-- A false header (R79). -/
theorem test_wf_refuses_short_length : (Instr.frameWrite 4 0 [] 0xE8D1).wellFormed = false := by decide
/-- V-FE-02 with its checksum's bytes swapped (R73). -/
theorem test_wf_refuses_write_frame_checksum : (Instr.frameWrite 5 0 [] 0xD1E8).wellFormed = false := by decide
theorem test_wf_refuses_odd_byte_count :
    (Instr.frameRead 0 3 (crc (readBody 0 3))).wellFormed = false := by decide
/-- V-FR-20: F with its last byte 0x72 changed to 0x73. -/
theorem test_wf_refuses_read_frame_checksum : (Instr.frameRead 0x5000 4 0x7328).wellFormed = false := by decide
theorem test_encodable_refuses_payload_length : (Instr.frameWrite 9 0 [1, 2, 3] 0).encodable = false := by decide
theorem test_wf_accepts_vectors :
    (Instr.frameWrite 9 0x5000 [0x12, 0x34, 0xAB, 0xCD] 0x4B4F).wellFormed = true ∧
      (Instr.frameRead 0x5000 4 0x7228).wellFormed = true := by decide

/-! ### Decoding: records and frames written out from R74, R75, R81 -/

theorem test_decode_crc : decodeRecord [0x01, 0x00, 0x01, 0x80] = .ok (.crc [0x80]) := by decide
theorem test_decode_crc_append : decodeRecord [0x02, 0x00, 0x02, 0x12, 0x34] = .ok (.crcAppend [0x12, 0x34]) := by decide
theorem test_decode_crc_verify : decodeRecord [0x03, 0x28, 0x72, 0x00, 0x01, 0x83] = .ok (.crcVerify 0x2872 [0x83]) := by
  decide
theorem test_decode_crc_verify_buf :
    decodeRecord [0x04, 0x00, 0x01, 0x28, 0x00, 0x02, 0x83, 0x50] = .ok (.crcVerifyBuf [0x28] [0x83, 0x50]) := by decide
theorem test_decode_build_write : decodeRecord [0x10, 0x12, 0x34, 0x00, 0x01, 0x01] = .ok (.buildWrite 0x1234 [0x01]) := by
  decide
theorem test_decode_build_read : decodeRecord [0x11, 0x00, 0x10, 0x40] = .ok (.buildRead 0x0010 64) := by decide
theorem test_decode_send : decodeRecord [0x12, 0x00, 0x00] = .ok (.send []) := by decide
theorem test_decode_receive : decodeRecord [0x20, 0x01, 0x02, 0x03] = .ok (.receive 0x0102 3) := by decide
theorem test_decode_frame_write :
    decodeFrame [0x5A, 0xA5, 0x05, 0x82, 0x12, 0x34, 0xD1, 0xE8] = .ok (.frameWrite 5 0x1234 [] 0xE8D1) := by decide
theorem test_decode_frame_read : decodeFrame frameF = .ok (.frameRead 0x5000 4 0x7228) := by decide

/-- A 256-byte sequence has the length prefix 0x01 0x00 (V-CE-11). -/
theorem test_decode_long_sequence :
    decodeRecord ([0x01, 0x01, 0x00] ++ List.replicate 256 7) = .ok (.crc (List.replicate 256 7)) := by decide +kernel

theorem test_decode_rejects :
    decodeRecord [0x05] = .error (.illegalCode 0x05) ∧ decodeRecord [0x5A] = .error (.illegalCode 0x5A) ∧
      decodeRecord [0x01, 0x00, 0x02, 0x12] = .error .truncated ∧ decodeRecord [0x11, 0, 0, 0, 0] = .error (.trailing 1) ∧
      decodeRecord [] = .error .empty ∧ decodeFrame [0x5A, 0xA5, 0x05, 0x84, 0, 0, 0, 0] = .error (.unknownOpcode 0x84) ∧
      decodeFrame [0x5A, 0xA5, 0x0A, 0x83, 0, 0, 0, 0] = .error (.notReadCommand 0x0A) ∧
      decodeFrame [0x5A, 0x5A, 0x05, 0x82] = .error .noHeader := by decide

theorem test_table_words :
    decodeTableWord 8 0x01 = some (.crc []) ∧ decodeTableWord 8 0x02 = some (.crcAppend []) ∧
      decodeTableWord 8 0x03 = some (.crcVerify 0 []) ∧ decodeTableWord 8 0x04 = some (.crcVerifyBuf [] []) ∧
      decodeTableWord 8 0x10 = some (.buildWrite 0 []) ∧ decodeTableWord 8 0x11 = some (.buildRead 0 0) ∧
      decodeTableWord 8 0x12 = some (.send []) ∧ decodeTableWord 8 0x20 = some (.receive 0 0) ∧
      decodeTableWord 32 0x5AA50582 = some (.frameWrite 5 0 [] 0) ∧
      decodeTableWord 32 0x5AA50683 = some (.frameRead 0 0 0) ∧ decodeTableWord 8 0x05 = none := by decide

theorem test_fetch_word_runs :
    step (State.reset.withFetchWord 8 0x11) = exec (.buildRead 0 0) State.reset ∧
      step (State.reset.withFetchWord 32 0x5AA50683) = exec (.frameRead 0 0 0) State.reset := ⟨rfl, rfl⟩

/-! ### One step of each instruction (95_test_vectors.md) -/

/-- 95_test_vectors.md section 2.1. -/
theorem test_ctab_spots :
    ctab 0x01 = 0xC0C1 ∧ ctab 0x5A = 0x3B80 ∧ ctab 0x60 = 0x2800 ∧ ctab 0xA5 = 0x7BC0 ∧ ctab 0x7C = 0xE101 ∧
      ctab 0xAE = 0xBC81 ∧ ctab 0xFF = 0x4040 ∧ ctabEntries.length = 256 := by decide +kernel

/-- V-CE-09. -/
theorem test_crc : (after [.issue [0x01, 0, 4, 0x83, 0x50, 0, 4]] State.reset).map (·.resU16) = some 0x7228 := by decide
/-- V-CE-01. -/
theorem test_crc_empty :
    (after [.issue [0x01, 0, 0]] State.reset).map (fun t => (t.resU16, t.status)) = some (0xFFFF, 0x0020) := by decide
/-- V-CE-17. -/
theorem test_crc_append :
    (after [.issue [0x02, 0, 2, 0x12, 0x34]] State.reset).map (·.resData) = some [0x12, 0x34, 0x0C, 0xC7] := by decide
/-- V-CE-13. -/
theorem test_crc_verify :
    (after [.issue [0x03, 0x72, 0x28, 0, 4, 0x83, 0x50, 0, 4]] State.reset).map (·.resBool) = some 1 := by decide
/-- V-CE-15: a mismatch is not an error. -/
theorem test_crc_verify_swapped :
    (after [.issue [0x03, 0x28, 0x72, 0, 4, 0x83, 0x50, 0, 4]] State.reset).map (fun t => (t.resBool, t.status)) =
      some (0, 0x0020) := by decide
/-- V-CE-21. -/
theorem test_crc_verify_buf :
    (after [.issue [0x04, 0, 2, 0x28, 0x72, 0, 4, 0x83, 0x50, 0, 4]] State.reset).map (·.resBool) = some 1 := by decide
/-- V-CE-25: m = 3. -/
theorem test_crc_verify_buf_length :
    (after [.issue [0x04, 0, 3, 0x28, 0x72, 0, 0, 1, 0x83]] State.reset).map (·.status) = some 0x0021 := by decide
/-- V-FE-01. -/
theorem test_build_write :
    (after [.issue [0x10, 0x50, 0, 0, 4, 0x12, 0x34, 0xAB, 0xCD]] State.reset).map (·.resData) =
      some [0x5A, 0xA5, 0x09, 0x82, 0x50, 0x00, 0x12, 0x34, 0xAB, 0xCD, 0x4F, 0x4B] := by decide
/-- V-FE-15: n = 251. -/
theorem test_build_write_out_of_range :
    (after [.issue ([0x10, 0x01, 0, 0, 0xFB] ++ List.replicate 251 0)] State.reset).map (fun t => (t.status, t.resData)) =
      some (0x0022, []) := by decide +kernel
/-- V-FE-11: w = 128 sends the byte count 0x00. -/
theorem test_build_read_128 :
    (after [.issue [0x11, 0x10, 0, 0x80]] State.reset).map (·.resData) =
      some [0x5A, 0xA5, 0x06, 0x83, 0x10, 0x00, 0x00, 0x28, 0x65] := by decide
/-- V-FE-13: w = 129. -/
theorem test_build_read_out_of_range :
    (after [.issue [0x11, 0, 0, 0x81]] State.reset).map (·.status) = some 0x0022 := by decide
/-- V-TX-06: byte 3 is 0x82, so the queue is discarded. -/
theorem test_send_write_frame :
    (after [.issue [0x12, 0, 4, 0x5A, 0xA5, 0, 0x82]] (State.launch [] [1, 2] [])).map (·.txq) =
      some [0x5A, 0xA5, 0, 0x82] := by decide
/-- V-TX-02 and V-TX-03: a read frame, for both values of the OPEN parameter. -/
theorem test_send_read_frame :
    (sendBytes false frameF (State.launch [] [1, 2] [])).txq = [1, 2] ++ frameF ∧
      (sendBytes true frameF (State.launch [] [1, 2] [])).txq = frameF := by decide
/-- V-FR-03: a header split across polls. -/
theorem test_receive_split :
    (after ([.issue [0x20, 0, 10, 0]] ++ deliveries [[0x00, 0x5A], [0xA5, 0x06, 0x83, 0x50], [0x00, 0x04, 0x28, 0x72]])
      State.reset).map (fun t => (t.resData, t.status, t.frScan)) = some (frameF, 0x0020, 1) := by decide
/-- V-FR-12: T = 0. -/
theorem test_receive_zero :
    (after [.issue [0x20, 0, 0, 0]] State.reset).map (fun t => (t.status, t.frState)) = some (0x0021, .idle) := by decide
/-- V-FR-15's stream: W0 arrives as an instruction. -/
theorem test_frame_write_arrives :
    exec (.frameWrite 5 0 [] 0xE8D1) State.reset =
      .next (State.launch [0x5A, 0xA5, 0x05, 0x82, 0x00, 0x00, 0xD1, 0xE8] [] []) := rfl
/-- V-FR-01's stream: F arrives as an instruction. -/
theorem test_frame_read_arrives : exec (.frameRead 0x5000 4 0x7228) State.reset = .next (State.launch frameF [] []) := rfl

/-- V-FR-08: no data, three attempts. -/
theorem test_receive_timeout :
    (after ([.issue [0x20, 0, 3, 2]] ++ ticks 9) State.reset).map (fun t => (t.resAttempts, t.status)) =
      some (3, 0x0023) := by decide
/-- V-FR-06: a false header, the real frame in a later drain. -/
theorem test_receive_false_header :
    (after ([.issue [0x20, 0, 10, 0]] ++ deliveries [[0x5A, 0xA5, 0x02], frameF]) State.reset).map (·.resData) =
      some frameF := by decide
/-- V-CP-06: the BUSY check comes before the code check. -/
theorem test_busy_comes_first :
    (after [.issue [0x20, 0, 10, 0], .issue [0xFF]] State.reset).map (·.ack) = some (some .rejectedBusy) := by decide
/-- V-CP-01. -/
theorem test_illegal_code : (after [.issue [0x00]] State.reset) = some { State.reset with ack := some .rejectedIllegal } := by
  decide
/-- P2 steps 1 and 3: WIRE sends one byte, the rest of the old frame is discarded. -/
theorem test_wire_and_discard :
    (after [.wire, .issue ([0x12, 0, 8] ++ [0x5A, 0xA5, 0x05, 0x82, 0, 0, 0xD1, 0xE8])] (State.launch [] [1, 2, 3] [])).map
      (fun t => (t.txlog, t.txq)) = some ([1], [0x5A, 0xA5, 0x05, 0x82, 0, 0, 0xD1, 0xE8]) := by decide
/-- V-RS-01 steps 3 and 4: the stale tail stays in RXQ. -/
theorem test_reset_during_receive :
    (after [.issue [0x20, 0, 10, 0], .peer [0x5A, 0xA5, 0x06], .tick, .reset, .peer [0x28], .tick] State.reset).map
      (fun t => (t.status, t.frState, t.frBuf, t.rxq)) = some (0, .idle, [], [0x28]) := by decide
/-- P1 step 7: CHECK on the reply of step 5. -/
theorem test_check :
    checkCommand [0x5A, 0xA5, 0x06, 0x83, 0x50, 0x00, 0x04, 0x28, 0x72] =
      some (.crcVerifyBuf [0x28, 0x72] [0x83, 0x50, 0x00, 0x04]) := by decide
/-- XFER_READ issues BUILD_READ, waits, and sends what RES_DATA then holds (R87). -/
theorem test_xfer_read :
    (hostNext (xferRead 0x5000 2 20 1) State.reset).1 = some [0x11, 0x50, 0x00, 0x02] ∧
      (hostNext [.sendRes] { State.reset with resData := [7] }).1 = some [0x12, 0, 1, 7] := by decide

/-! ### Witnesses: the hypotheses of each statement hold together -/

theorem witness_StepRunsTheDecodedInstruction :
    (State.launch [] [] [.issue [0x12, 0, 0]]).inputs = .issue [0x12, 0, 0] :: [] ∧
      decodeRecord [0x12, 0, 0] = .ok (.send []) ∧
      (State.launch [] [] [.peer frameF]).inputs = .peer frameF :: [] ∧
      decodeFrame frameF = .ok (.frameRead 0x5000 4 0x7228) := by decide
theorem witness_DecodeReadsBackEveryEncoding :
    (Instr.crcVerifyBuf [1, 2] []).encodable = true ∧ (Instr.frameWrite 255 0xFFFF (List.replicate 250 9) 0).encodable = true ∧
      (Instr.crc (List.replicate 65535 0)).encodable = true := by
  refine ⟨by decide, by decide +kernel, ?_⟩
  rw [Instr.encodable, seqFits, List.length_replicate]; rfl
theorem witness_EveryDecodingEncodesBackToItsBytes :
    decode frameF = .ok (.frameRead 0x5000 4 0x7228) ∧ decodeFrame frameF = .ok (.frameRead 0x5000 4 0x7228) ∧
      decodeRecord [0x20, 0, 1, 0] = .ok (.receive 1 0) := by decide
theorem witness_WellFormedInstructionsAreEncodable : (Instr.frameWrite 5 0 [] 0xE8D1).wellFormed = true := by decide
theorem witness_IllegalCodesAreRejected :
    (0x00 : Byte) ∉ legalCodes ∧ (0x5A : Byte) ∉ legalCodes ∧ (0xFF : Byte) ∉ legalCodes ∧
      (State.launch [] [] [.issue [0xFF]]).inputs = .issue (0xFF :: []) :: [] := by decide
theorem witness_BusyCommandsChangeNoState :
    (receiving [] []).busy = true ∧ (Instr.buildRead 0 130).isFrame = false := by decide
theorem witness_ResetSetsEveryRegisterAndKeepsTheChannel : (receiving [1] [.reset]).inputs = .reset :: [] := rfl
theorem witness_ResetAbandonsAReceive :
    (receiving [1] [.reset]).busy = true ∧ (receiving [1] [.reset]).inputs = .reset :: [] := by decide
theorem witness_WireSendsTheHeadByte :
    (State.launch [] [7] [.wire]).inputs = .wire :: [] ∧ (State.launch [] [7] [.wire]).txq = 7 :: [] ∧
      (State.launch [] [] [.wire]).inputs = .wire :: [] ∧ (State.launch [] [] [.wire]).txq = [] := by decide
theorem witness_PeerBytesJoinTheTail :
    (State.launch [1] [] [.peer [2]]).inputs = .peer [2] :: [] ∧ (State.launch [1] [] [.peer frameF]).inputs = .peer frameF :: [] := by
  decide
theorem witness_IdleTickChangesNothing :
    (State.launch [1] [] [.tick]).busy = false ∧ (State.launch [1] [] [.tick]).inputs = .tick :: [] := by decide
theorem witness_SingleBitFlipChangesTheChecksum : 0 < 8 ∧ 7 < 8 := by decide

/-- Every statement about an accepted command: LNK is idle after reset, and lengths exist on both sides of every limit. -/
theorem witness_operand_lengths :
    State.reset.busy = false ∧ (List.replicate Config.maxOperandBytes (0 : Byte)).length ≤ Config.maxOperandBytes ∧
      Config.maxOperandBytes < (List.replicate (Config.maxOperandBytes + 1) (0 : Byte)).length := by
  simp [State.busy, statusBusy, State.reset, State.launch]
theorem witness_CrcGivesTheChecksum :
    State.reset.busy = false ∧ ([] : List Byte).length ≤ Config.maxOperandBytes ∧
      Config.maxOperandBytes < (List.replicate 65536 (0 : Byte)).length := by
  have := maxOperandBytes_le
  exact ⟨rfl, Nat.zero_le _, by rw [List.length_replicate]; omega⟩
theorem witness_CrcAppendAddsTheChecksum :
    State.reset.busy = false ∧ ([] : List Byte).length ≤ Config.maxOperandBytes ∧
      Config.maxOperandBytes < (List.replicate 65536 (0 : Byte)).length := witness_CrcGivesTheChecksum
theorem witness_CrcVerifyComparesTheChecksum :
    State.reset.busy = false ∧ ([] : List Byte).length ≤ Config.maxOperandBytes ∧
      Config.maxOperandBytes < (List.replicate 65536 (0 : Byte)).length := witness_CrcGivesTheChecksum
theorem witness_CrcVerifyBufComparesTheBuffer :
    State.reset.busy = false ∧ ([] : List Byte).length ≤ Config.maxOperandBytes ∧ ([0x28, 0x72] : List Byte) = [0x28, 0x72] ∧
      ([0x28] : List Byte).length ≠ 2 ∧ ([0x28, 0x72, 0x00] : List Byte).length ≠ 2 ∧
      Config.maxOperandBytes < (List.replicate 65536 (0 : Byte)).length :=
  ⟨rfl, Nat.zero_le _, rfl, by decide, by decide, witness_CrcGivesTheChecksum.2.2⟩
theorem witness_BuildWriteBuildsTheFrame :
    State.reset.busy = false ∧ (List.replicate 250 (0 : Byte)).length ≤ 250 ∧ 250 < (List.replicate 251 (0 : Byte)).length ∧
      (List.replicate 251 (0 : Byte)).length ≤ Config.maxOperandBytes ∧
      Config.maxOperandBytes < (List.replicate 65536 (0 : Byte)).length := by
  have := minOperandBytes_le
  exact ⟨rfl, by rw [List.length_replicate], by rw [List.length_replicate]; omega, by rw [List.length_replicate]; omega, witness_CrcGivesTheChecksum.2.2⟩
theorem witness_BuildReadBuildsTheFrame :
    State.reset.busy = false ∧ (128 : Byte).toNat ≤ 128 ∧ (0x00 : Byte).toNat = 2 * (128 : Byte).toNat % 256 ∧
      128 < (129 : Byte).toNat := by decide
theorem witness_BuiltFramesMeetTheFrameInvariants :
    State.reset.busy = false ∧
      (∃ t, exec (.buildRead 0x5000 2) State.reset = .next t ∧ t.err = ErrKind.ok.code ∧ t.resData = frameF) ∧
      (∃ t, exec (.buildWrite 0 []) State.reset = .next t ∧ t.err = ErrKind.ok.code) ∧
      AttemptStart (receiving frameF []) ∧ (receiving frameF []).rxq = frameF :=
  ⟨rfl, ⟨_, rfl, by decide, by decide⟩, ⟨_, rfl, by decide⟩, ⟨by decide, rfl, rfl, rfl, rfl, by decide⟩, rfl⟩
theorem witness_SendQueuesTheBytes :
    State.reset.busy = false ∧ frameF.length ≤ Config.maxOperandBytes ∧ frameF[0]? = some 0x5A ∧ frameF[1]? = some 0xA5 ∧
      frameF[3]? = some 0x83 ∧ ([0x5A, 0xA5, 0x00, 0x82] : List Byte)[3]? = some 0x82 ∧
      ([0x5A, 0xA5, 0x06] : List Byte)[3]? = none ∧ Config.maxOperandBytes < (List.replicate 65536 (0 : Byte)).length := by
  have := minOperandBytes_le
  exact ⟨rfl, by show 9 ≤ _; omega, rfl, rfl, rfl, rfl, rfl, witness_CrcGivesTheChecksum.2.2⟩
theorem witness_WriteTransferLeavesOnlyItsFrameQueued :
    (State.launch [] [1, 2] []).busy = false ∧ (List.replicate 250 (0 : Byte)).length ≤ 250 := by
  exact ⟨rfl, by rw [List.length_replicate]⟩
theorem witness_CheckAcceptsBuiltFrames :
    State.reset.busy = false ∧ (∃ t, exec (.buildRead 0x5000 2) State.reset = .next t ∧ t.err = ErrKind.ok.code) ∧
      ∃ t, exec (.buildWrite 0 []) State.reset = .next t ∧ t.err = ErrKind.ok.code :=
  ⟨rfl, ⟨_, rfl, by decide⟩, ⟨_, rfl, by decide⟩⟩
theorem witness_ReceiveStartsTheFirstAttempt : State.reset.busy = false ∧ (0 : U16) = 0 ∧ (1 : U16) ≠ 0 := by decide
theorem witness_AdvanceEndsByItself : 2 * State.reset.frBuf.length + 4 ≤ 4 := by decide

/-- The start of an attempt is a state of the invariant, whatever RXQ holds and whatever comes. -/
theorem receiving_inv (rxq : List Byte) (es : List Event) : Inv (receiving rxq es) := by
  constructor <;>
    simp [receiving, State.launch, statusReserved, State.err, statusErr, State.busy, statusBusy, State.done, statusDone,
      codeReceive, legalCodes, firstHeader]
  exact ⟨rfl, rfl, rfl, rfl⟩
/-- The same in the last poll of the last attempt. -/
theorem receiving_last_inv (rxq : List Byte) (es : List Event) :
    Inv { receiving rxq es with frElapsed := 1, frAttempt := 2 } := by
  constructor <;>
    simp [receiving, State.launch, statusReserved, State.err, statusErr, State.busy, statusBusy, State.done, statusDone,
      codeReceive, legalCodes, firstHeader]
  exact ⟨rfl, rfl, rfl, rfl⟩

/-- A header whose length byte has not come leaves FR awaiting it (R165), so the invariant has no search that stands after
it. -/
theorem test_header_at_the_end_awaits_its_length :
    (tick (receiving [9, 0x5A, 0xA5] [])).frState = .headerFoundAwaitingLength ∧
      (tick (receiving [9, 0x5A] [])).frState = .searchingHeader ∧ (tick (receiving [9, 0x5A] [])).frScan = 1 := by decide
theorem test_no_search_stands_after_a_header :
    ¬Inv { receiving [] [] with frBuf := [0x5A, 0xA5], frScan := 1 } := fun h => (h.searching rfl).2.2 rfl
/-- While BUSY the response registers are clear (R27). -/
theorem test_no_result_while_busy : ¬Inv { receiving [] [] with resData := [1] } :=
  fun h => absurd (h.cleared (by decide)).resData (by decide)

theorem witness_TickReturnsTheCompletedFrame :
    Inv (receiving frameF [.tick]) ∧ (receiving frameF [.tick]).busy = true ∧
      (receiving frameF [.tick]).inputs = .tick :: [] ∧
      streamFrame ((receiving frameF [.tick]).frBuf ++ (receiving frameF [.tick]).rxq) = some frameF :=
  ⟨receiving_inv _ _, by decide, rfl, by decide⟩
/-- The three cases of R167: time left, another attempt left, none left. -/
theorem witness_TickWithoutAFrameCountsTime :
    Inv (receiving [1] [.tick]) ∧ streamFrame ((receiving [1] [.tick]).frBuf ++ (receiving [1] [.tick]).rxq) = none ∧
      (receiving [1] [.tick]).busy = true ∧ (receiving [1] [.tick]).inputs = .tick :: [] ∧
      (receiving [1] [.tick]).frElapsed.toNat + 1 < (receiving [1] [.tick]).frTimeout.toNat ∧
      ({ receiving [1] [.tick] with frElapsed := 1 } : State).frElapsed.toNat + 1 = (receiving [1] [.tick]).frTimeout.toNat ∧
      (receiving [1] [.tick]).frAttempt.toNat < (receiving [1] [.tick]).frMaxRetry.toNat + 1 ∧
      Inv { receiving [1] [.tick] with frElapsed := 1, frAttempt := 2 } ∧
      (2 : U16).toNat = (receiving [1] [.tick]).frMaxRetry.toNat + 1 :=
  ⟨receiving_inv _ _, by decide, by decide, rfl, by decide, by decide, by decide, receiving_last_inv _ _, by decide⟩
theorem receiving_start (rxq : List Byte) (es : List Event) : AttemptStart (receiving rxq es) :=
  ⟨by simp [receiving, State.busy, statusBusy], rfl, rfl, rfl, rfl, by simp [receiving]⟩
/-- Both halves: a whole frame on the T-th poll, and no frame with a poll left. -/
theorem witness_ReceivedFrameDependsOnlyOnTheStream :
    AttemptStart (receiving [0x5A] []) ∧ ([[0xA5], frameF.drop 2] : List (List Byte)) ≠ [] ∧
      ([[0xA5], frameF.drop 2] : List (List Byte)).length ≤ (receiving [0x5A] []).frTimeout.toNat ∧
      streamFrame ((receiving [0x5A] []).rxq ++ [[0xA5], frameF.drop 2].flatten) = some frameF ∧
      ([[0xA5]] : List (List Byte)) ≠ [] ∧ ([[0xA5]] : List (List Byte)).length < (receiving [0x5A] []).frTimeout.toNat ∧
      streamFrame ((receiving [0x5A] []).rxq ++ [[0xA5]].flatten) = none :=
  ⟨receiving_start _ _, by decide, by decide, by decide, by decide, by decide, by decide⟩
theorem witness_FalseHeadersAreSkipped :
    AttemptStart (receiving [] []) ∧ (receiving [] []).rxq = [] ∧ (∀ b ∈ ([0xA5] : List Byte), b ≠ 0x5A) ∧
      (∀ b ∈ ([] : List Byte), b ≠ 0x5A) ∧ frameShaped frameF = true ∧ (4 : Byte).toNat < 5 ∧
      1 < (receiving [] []).frTimeout.toNat ∧ 5 ≤ (5 : Byte).toNat ∧ (List.replicate 5 (0 : Byte)).length = (5 : Byte).toNat :=
  ⟨receiving_start _ _, rfl, by decide, by decide, by decide, by decide, by decide, by decide, by decide⟩
theorem witness_ReceiveChecksNeitherOpcodeNorChecksum :
    AttemptStart (receiving [0x5A, 0xA5, 5, 1, 2, 3, 4, 5, 9] []) ∧ 5 ≤ (5 : Byte).toNat ∧
      ([1, 2, 3, 4, 5] : List Byte).length = (5 : Byte).toNat ∧
      (receiving [0x5A, 0xA5, 5, 1, 2, 3, 4, 5, 9] []).rxq = 0x5A :: 0xA5 :: 5 :: ([1, 2, 3, 4, 5] ++ [9]) :=
  ⟨receiving_start _ _, by decide, by decide, rfl⟩
theorem witness_SilentReceiveTimesOutExactly :
    State.reset.busy = false ∧ (1 : U16) ≠ 0 ∧ State.reset.rxq = [] ∧ 0 < (1 : U16).toNat * ((0 : Byte).toNat + 1) := by decide
theorem witness_EveryTickUsesUpOnePoll :
    State.reset.busy = false ∧ (1 : U16) ≠ 0 ∧ (∃ t, exec (.receive 1 0) State.reset = .next t) ∧
      Inv (receiving [] [.tick]) ∧ (receiving [] [.tick]).busy = true ∧ (Event.tick ≠ .reset) ∧
      (∃ t, step (receiving [] [.tick]) = .next t) ∧ Inv (receiving [] [.wire]) ∧ (Event.wire ≠ .reset) ∧ (Event.wire ≠ .tick) ∧
      (∃ t, step (receiving [] [.wire]) = .next t) :=
  ⟨rfl, by decide, ⟨_, rfl⟩, receiving_inv _ _, by decide, by decide, ⟨_, rfl⟩, receiving_inv _ _, by decide, by decide, ⟨_, rfl⟩⟩
theorem witness_BoundedStorageGivesTheSameResults : Inv (receiving frameF [.tick]) := receiving_inv _ _
theorem witness_WellFormedFramesAreReceivedUnchanged :
    AttemptStart (receiving [] []) ∧ (receiving [] []).rxq = [] ∧ (Instr.frameRead 0x5000 4 0x7228).isFrame = true ∧
      (Instr.frameRead 0x5000 4 0x7228).wellFormed = true ∧ (Instr.frameWrite 5 0 [] 0xE8D1).wellFormed = true :=
  ⟨receiving_start _ _, rfl, rfl, by decide, by decide⟩
theorem witness_StepsStopOnlyOnBrokenRecords : step (State.launch [] [] [.issue [0x01, 0x00]]) = .fault .notWholeRecord := rfl
theorem witness_EveryStepKeepsTheInvariant :
    Inv (receiving frameF [.tick]) ∧ ∃ t, step (receiving frameF [.tick]) = .next t := ⟨receiving_inv _ _, ⟨_, rfl⟩⟩

/-- The whole-machine rules have one hypothesis, that a step answers a next state: here for a step of each agent. -/
theorem witness_steps_answer :
    (∃ t, step (receiving [1] [.tick]) = .next t) ∧ (∃ t, step (State.launch [] [] [.peer [1]]) = .next t) ∧
      (∃ t, step (State.launch [] [7] [.wire]) = .next t) ∧ (∃ t, step (receiving [1] [.reset]) = .next t) ∧
      (∃ t, step (State.launch [] [7] [.issue [0x12, 0, 0]]) = .next t) ∧
      (∃ t, step (State.launch [] [] [.issue [0x20, 0, 1, 0]]) = .next t) :=
  ⟨⟨_, rfl⟩, ⟨_, rfl⟩, ⟨_, rfl⟩, ⟨_, rfl⟩, ⟨_, rfl⟩, ⟨_, rfl⟩⟩
theorem witness_OnlyPeerAndPollsChangeRxq : ∃ t, step (receiving [1] [.tick]) = .next t := witness_steps_answer.1
theorem witness_OnlyWireAndSendChangeTheTransmitSide : ∃ t, step (State.launch [] [7] [.wire]) = .next t :=
  witness_steps_answer.2.2.1
theorem witness_CurIsWrittenOnlyAtAcceptance : ∃ t, step (State.launch [] [7] [.issue [0x12, 0, 0]]) = .next t :=
  witness_steps_answer.2.2.2.2.1
theorem witness_ReservedStatusBitsAreNeverWritten : ∃ t, step (receiving [1] [.reset]) = .next t :=
  witness_steps_answer.2.2.2.1
theorem witness_OnlyReceiveAndPollsChangeTheReceiver : ∃ t, step (State.launch [] [] [.issue [0x20, 0, 1, 0]]) = .next t :=
  witness_steps_answer.2.2.2.2.2
theorem witness_ResponseRegistersKeepTheirValues : ∃ t, step (State.launch [] [] [.peer [1]]) = .next t :=
  witness_steps_answer.2.1
theorem witness_ChannelFreeCommandsAreIdempotent :
    (Instr.crc [1]).isFrame = false ∧ (∀ d, Instr.crc [1] ≠ .send d) ∧ (∀ n r, Instr.crc [1] ≠ .receive n r) ∧
      ∃ t, exec (.crc [1]) State.reset = .next t := ⟨rfl, by simp, by simp, ⟨_, rfl⟩⟩
theorem witness_HostCannotSeeTheTransmitQueue : ∃ t, step (receiving [1] [.tick]) = .next t := witness_steps_answer.1

end Sys2Proof.Tests
end

/-! # What the bytes of a decoding are -/

namespace Sys2Proof

open Machine

/-! ### A decoding and the bytes it was read from (30_encoding.md R70, R74, R75, R80 to R82) -/

/-- The reader of each command's operands reads what the encoder of that command writes (R81). -/
theorem decodeOperands_eq_ok {c : Byte} {r r' : List Byte} {i : Instr} (h : decodeOperands c r = .ok (i, r')) :
    i.encodable = true ∧ i.isFrame = false ∧ c :: r = encode i ++ r' := by
  unfold decodeOperands at h
  split_ifs at h with hc hc hc hc hc hc hc hc <;> subst hc
  · -- CRC
    obtain ⟨d, r, rfl, hd, h⟩ := withSeq_eq_ok h
    cases h
    exact ⟨decide_eq_true hd, rfl, rfl⟩
  · -- CRC_APPEND
    obtain ⟨d, r, rfl, hd, h⟩ := withSeq_eq_ok h
    cases h
    exact ⟨decide_eq_true hd, rfl, rfl⟩
  · -- CRC_VERIFY
    obtain ⟨x, r, rfl, h⟩ := withU16_eq_ok h
    obtain ⟨d, r, rfl, hd, h⟩ := withSeq_eq_ok h
    cases h
    exact ⟨decide_eq_true hd, rfl, by simp [encode]⟩
  · -- CRC_VERIFY_BUF
    obtain ⟨b, r, rfl, hb, h⟩ := withSeq_eq_ok h
    obtain ⟨d, r, rfl, hd, h⟩ := withSeq_eq_ok h
    cases h
    exact ⟨by simp [Instr.encodable, seqFits, hb, hd], rfl, by simp [encode]⟩
  · -- BUILD_WRITE
    obtain ⟨a, r, rfl, h⟩ := withU16_eq_ok h
    obtain ⟨d, r, rfl, hd, h⟩ := withSeq_eq_ok h
    cases h
    exact ⟨decide_eq_true hd, rfl, by simp [encode]⟩
  · -- BUILD_READ
    obtain ⟨a, r, rfl, h⟩ := withU16_eq_ok h
    obtain ⟨w, r, rfl, h⟩ := withByte_eq_ok h
    cases h
    exact ⟨rfl, rfl, by simp [encode]⟩
  · -- SEND
    obtain ⟨d, r, rfl, hd, h⟩ := withSeq_eq_ok h
    cases h
    exact ⟨decide_eq_true hd, rfl, rfl⟩
  · -- RECEIVE
    obtain ⟨t, r, rfl, h⟩ := withU16_eq_ok h
    obtain ⟨n, r, rfl, h⟩ := withByte_eq_ok h
    cases h
    exact ⟨rfl, rfl, by simp [encode]⟩

/-- A record is read from exactly its own bytes (R80, R81). -/
theorem decodeRecordPrefix_eq_ok {bs r : List Byte} {i : Instr} (h : decodeRecordPrefix bs = .ok (i, r)) :
    i.encodable = true ∧ i.isFrame = false ∧ bs = encode i ++ r := by
  match bs, h with
  | _ :: _, h => exact decodeOperands_eq_ok h

/-- What follows the opcode of a write frame is its address, payload and checksum (R74). -/
theorem decodeWriteFrame_eq_ok {len : Byte} {bs r : List Byte} {i : Instr}
    (h : decodeWriteFrame len bs = .ok (i, r)) :
    i.encodable = true ∧ i.isFrame = true ∧
      Config.hdr1 :: Config.hdr2 :: len :: Config.opcWrite :: bs = encode i ++ r := by
  obtain ⟨addr, bs, rfl, hdata⟩ := withU16_eq_ok h
  obtain ⟨data, bs, rfl, hl, hchk⟩ := withBytes_eq_ok hdata
  obtain ⟨x, bs, rfl, hi⟩ := withU16Le_eq_ok hchk
  cases hi
  exact ⟨decide_eq_true hl, rfl, by simp [encode, writeBody]⟩

/-- What follows the opcode of a read-command frame is its address, byte count and checksum (R75). -/
theorem decodeReadFrame_eq_ok {len : Byte} {bs r : List Byte} {i : Instr}
    (h : decodeReadFrame len bs = .ok (i, r)) :
    i.encodable = true ∧ i.isFrame = true ∧
      Config.hdr1 :: Config.hdr2 :: len :: Config.opcRead :: bs = encode i ++ r := by
  unfold decodeReadFrame at h
  split_ifs at h with hl
  obtain ⟨addr, bs, rfl, hcount⟩ := withU16_eq_ok h
  obtain ⟨bc, bs, rfl, hchk⟩ := withByte_eq_ok hcount
  obtain ⟨x, bs, rfl, hi⟩ := withU16Le_eq_ok hchk
  cases hi
  exact ⟨rfl, rfl, by simp [encode, readBody, hl]⟩

/-- A wire frame is read from exactly its own bytes (R70, R74, R75). -/
theorem decodeFramePrefix_eq_ok {bs r : List Byte} {i : Instr} (h : decodeFramePrefix bs = .ok (i, r)) :
    i.encodable = true ∧ i.isFrame = true ∧ bs = encode i ++ r := by
  match bs, h with
  | _ :: _ :: _ :: _ :: _, h =>
    simp only [decodeFramePrefix] at h
    split_ifs at h with hh hw hr
    · rw [hh.1, hh.2, hw]; exact decodeWriteFrame_eq_ok h
    · rw [hh.1, hh.2, hr]; exact decodeReadFrame_eq_ok h

/-- The command of a record encodes to the record (R81). -/
theorem decodeRecord_eq_ok {bs : List Byte} {i : Instr} (h : decodeRecord bs = .ok i) :
    i.encodable = true ∧ i.isFrame = false ∧ encode i = bs := by
  obtain ⟨he, hf, rfl⟩ := decodeRecordPrefix_eq_ok (whole_eq_ok.1 h)
  exact ⟨he, hf, by simp⟩

/-- The frame that PEER's bytes are encodes to these bytes (R74, R75). -/
theorem decodeFrame_eq_ok {bs : List Byte} {i : Instr} (h : decodeFrame bs = .ok i) :
    i.encodable = true ∧ i.isFrame = true ∧ encode i = bs := by
  obtain ⟨he, hf, rfl⟩ := decodeFramePrefix_eq_ok (whole_eq_ok.1 h)
  exact ⟨he, hf, by simp⟩

end Sys2Proof

/-! # What a command can do -/

namespace Sys2Proof.Machine

/-! ### The two ways in which an accepted command leaves its issue step (R27, R28, R161)

Every rule but that of RECEIVE with T ≥ 1 ends at once, with the results it writes and `finish`; SEND alone writes to the
channel. `answer` and `listen` are these two ends as one record update each. -/

/-- The command with code `c`, accepted in `s`, has written these results and this transmit queue and has finished. -/
def answer (c : Byte) (e : ErrKind) (u : U16) (b : BitVec 1) (d q : List Byte) (s : State) : State :=
  ({ s.accept c with resU16 := u, resBool := b, resData := d, txq := q } : State).finish e

/-- `RECEIVE n, r`, accepted in `s`, has started its first attempt (R161, R162). -/
def listen (n : U16) (r : Byte) (s : State) : State :=
  { startAttempt { s.accept codeReceive with frTimeout := n, frMaxRetry := r, frAttempt := 1 } with
    status := setBusy true (statusAccepted s.status) }

section
variable (c : Byte) (e : ErrKind) (u : U16) (b : BitVec 1) (d q : List Byte) (s : State)

theorem answer_finishedWith : FinishedWith e c s (answer c e u b d q s) where
  err := err_finish _ _
  done := done_finish _ _
  busy := busy_finish _ _
  reserved := by simp [answer]
  cur := rfl
  ack := rfl
  inputs := rfl

theorem answer_sameReceiver : SameReceiver s (answer c e u b d q s) := ⟨rfl, rfl, rfl, rfl, rfl, rfl, rfl, rfl, rfl⟩

end

section
variable (n : U16) (r : Byte) (s : State)

@[simp] theorem listen_cur : (listen n r s).cur = codeReceive := rfl
@[simp] theorem busy_listen : (listen n r s).busy = true := by simp [listen, State.busy]
@[simp] theorem done_listen : (listen n r s).done = false := by simp [listen, State.done]
@[simp] theorem err_listen : (listen n r s).err = 0 := by simp [listen, State.err]
@[simp] theorem statusReserved_listen : statusReserved (listen n r s).status = statusReserved s.status := by
  simp [listen]

theorem listen_response : Response (listen n r s) 0 0 [] 0 := ⟨rfl, rfl, rfl, rfl⟩

end

/-! ### Each rule -/

/-- The results with which a command of the checksum engine or of the frame encoder can finish (R84, R26). -/
structure Answer (e : ErrKind) (d : List Byte) : Prop where
  kind : e = .ok ∨ e = .invalidArgument ∨ e = .outOfRange
  fits : d.length ≤ Config.maxOperandBytes + 2

/-- What an accepted command with code `c` makes of `s` if it ends at once and leaves the channel alone. -/
def AnswersTo (c : Byte) (s t : State) : Prop := ∃ e u b d, Answer e d ∧ t = answer c e u b d s.txq s

theorem Answer.of_short {d : List Byte} (h : d.length ≤ 258) : Answer .ok d :=
  ⟨.inl rfl, by have := minOperandBytes_le; omega⟩

theorem answersTo_raise {k : ErrKind} (hk : k = .ok ∨ k = .invalidArgument ∨ k = .outOfRange) (c : Byte) (s : State) :
    AnswersTo c s ((s.accept c).raise k) := ⟨k, 0, 0, [], ⟨hk, Nat.zero_le _⟩, rfl⟩

/-- The operand check turns a rule that answers within its operand limits into one that always answers (R205). -/
theorem answersTo_checkOperands {ops : List (List Byte)} {run : State → State} {c : Byte} {s : State}
    (h : (∀ d ∈ ops, d.length ≤ Config.maxOperandBytes) → AnswersTo c s (run (s.accept c))) :
    AnswersTo c s (checkOperands ops run (s.accept c)) := by
  rcases checkOperands_cases ops run (s.accept c) with ⟨_, e⟩ | ⟨hfit, e⟩ <;> rw [e]
  · exact answersTo_raise (.inr (.inl rfl)) c s
  · exact h hfit

theorem answersTo_runCrc (d : List Byte) (s : State) : AnswersTo codeCrc s (runCrc d (s.accept codeCrc)) :=
  answersTo_checkOperands fun _ => ⟨.ok, crc d, 0, [], .of_short (Nat.zero_le _), rfl⟩

theorem answersTo_runCrcAppend (d : List Byte) (s : State) :
    AnswersTo codeCrcAppend s (runCrcAppend d (s.accept codeCrcAppend)) :=
  answersTo_checkOperands fun hd => ⟨.ok, 0, 0, d ++ le16 (crc d), ⟨.inl rfl, by simpa using hd⟩, rfl⟩

theorem answersTo_runCrcVerify (x : U16) (d : List Byte) (s : State) :
    AnswersTo codeCrcVerify s (runCrcVerify x d (s.accept codeCrcVerify)) :=
  answersTo_checkOperands fun _ => ⟨.ok, 0, _, [], .of_short (Nat.zero_le _), rfl⟩

theorem answersTo_runCrcVerifyBuf (b d : List Byte) (s : State) :
    AnswersTo codeCrcVerifyBuf s (runCrcVerifyBuf b d (s.accept codeCrcVerifyBuf)) :=
  answersTo_checkOperands fun _ => by
    unfold compareBuf
    split
    · exact ⟨.ok, 0, _, [], .of_short (Nat.zero_le _), rfl⟩
    · exact answersTo_raise (.inr (.inl rfl)) _ s

/-- A built frame has its header, its length byte, its body and its checksum (R70). -/
theorem length_frameOf (body : List Byte) : (frameOf body).length = body.length + 5 := by simp [frameOf]

theorem length_writeFrame (a : U16) (d : List Byte) : (writeFrame a d).length = d.length + 8 := by
  simp [writeFrame, length_frameOf, writeBody]; omega

theorem length_readFrame (a : U16) (w : Byte) : (readFrame a w).length = 9 := by
  simp [readFrame, length_frameOf, readBody]

theorem answersTo_runBuildWrite (a : U16) (d : List Byte) (s : State) :
    AnswersTo codeBuildWrite s (runBuildWrite a d (s.accept codeBuildWrite)) :=
  answersTo_checkOperands fun _ => by
    split_ifs with h
    · exact answersTo_raise (.inr (.inr rfl)) _ s
    · refine ⟨.ok, 0, 0, writeFrame a d, .of_short ?_, rfl⟩
      have : d.length ≤ 250 := Nat.le_of_not_lt h
      rw [length_writeFrame]; omega

theorem answersTo_runBuildRead (a : U16) (w : Byte) (s : State) :
    AnswersTo codeBuildRead s (runBuildRead a w (s.accept codeBuildRead)) := by
  unfold runBuildRead
  split_ifs
  · exact answersTo_raise (.inr (.inr rfl)) _ s
  · exact ⟨.ok, 0, 0, readFrame a w, .of_short (by simp [length_readFrame]), rfl⟩

/-- SEND is refused for an over-long operand, or appends its operand to the queue, emptied first or not (R133). -/
theorem runSend_cases (d : List Byte) (s : State) :
    runSend d (s.accept codeSend) = (s.accept codeSend).raise .invalidArgument ∨
      ∃ q, (q = s.txq ++ d ∨ q = d) ∧ runSend d (s.accept codeSend) = answer codeSend .ok 0 0 [] q s := by
  unfold runSend
  rcases checkOperands_cases [d] (fun s => (sendBytes Config.flushTxOnReadSend d s).finish .ok) (s.accept codeSend)
    with ⟨_, e⟩ | ⟨_, e⟩ <;> rw [e]
  · exact .inl rfl
  · refine .inr ⟨(if sendDiscards Config.flushTxOnReadSend d then [] else s.txq) ++ d, ?_, ?_⟩
    · split_ifs
      · exact .inr rfl
      · exact .inl rfl
    · rw [sendBytes_eq]; rfl

/-! ### Every command -/

/-- The ways in which a command leaves its issue step. -/
inductive CommandCase (i : Instr) (s : State) : State → Prop where
  /-- Rejected while BUSY (R27). -/
  | rejected : s.busy = true → CommandCase i s (s.withAck .rejectedBusy)
  /-- Accepted and ended, the channel untouched; a RECEIVE so ends only with InvalidArgument (R161). -/
  | answered {c : Byte} {r d : List Byte} {e : ErrKind} {u : U16} {b : BitVec 1} : s.busy = false →
      encode i = c :: r → c ∈ legalCodes → (c = codeReceive → e = .invalidArgument) → Answer e d →
      CommandCase i s (answer c e u b d s.txq s)
  /-- A SEND that queued its operand (R133). -/
  | sent {d q : List Byte} : s.busy = false → i = .send d → (q = s.txq ++ d ∨ q = d) →
      CommandCase i s (answer codeSend .ok 0 0 [] q s)
  /-- A RECEIVE that started (R161). -/
  | listening {n : U16} {r : Byte} : s.busy = false → i = .receive n r → n ≠ 0 → CommandCase i s (listen n r s)

/-- A rule that answers is one of these ways. -/
theorem commandCase_of_answersTo {i : Instr} {c : Byte} {r : List Byte} {run : State → State} {s t : State}
    (h : issue c run s = .next t) (hi : encode i = c :: r) (hc : c ∈ legalCodes) (hr : c ≠ codeReceive)
    (ha : AnswersTo c s (run (s.accept c))) : CommandCase i s t := by
  rcases issue_eq_next h with ⟨hb, rfl⟩ | ⟨hb, rfl⟩
  · exact .rejected hb
  · obtain ⟨e, u, b, d, ha, ht⟩ := ha
    rw [ht]
    exact .answered hb hi hc (fun h => absurd h hr) ha

theorem send_cases {d : List Byte} {s t : State} (h : execSend d s = .next t) : CommandCase (.send d) s t := by
  rcases issue_eq_next h with ⟨hb, rfl⟩ | ⟨hb, rfl⟩
  · exact .rejected hb
  · rcases runSend_cases d s with e | ⟨q, hq, e⟩ <;> rw [e]
    · exact .answered (b := 0) hb rfl (by decide) (fun h => absurd h (by decide)) ⟨.inr (.inl rfl), Nat.zero_le _⟩
    · exact .sent hb rfl hq

theorem receive_cases {n : U16} {r : Byte} {s t : State} (h : execReceive n r s = .next t) :
    CommandCase (.receive n r) s t := by
  rcases issue_eq_next h with ⟨hb, rfl⟩ | ⟨hb, rfl⟩
  · exact .rejected hb
  · rcases runReceive_cases n r (s.accept codeReceive) with ⟨_, e⟩ | ⟨hn, e⟩ <;> rw [e]
    · exact .answered (b := 0) hb rfl (by decide) (fun _ => rfl) ⟨.inr (.inl rfl), Nat.zero_le _⟩
    · exact .listening hb rfl hn

/-- A command leaves its issue step in no other way. -/
theorem command_cases {i : Instr} {s t : State} (hf : i.isFrame = false) (h : exec i s = .next t) :
    CommandCase i s t := by
  cases i with
  | crc d => exact commandCase_of_answersTo h rfl (by decide) (by decide) (answersTo_runCrc d s)
  | crcAppend d => exact commandCase_of_answersTo h rfl (by decide) (by decide) (answersTo_runCrcAppend d s)
  | crcVerify x d => exact commandCase_of_answersTo h rfl (by decide) (by decide) (answersTo_runCrcVerify x d s)
  | crcVerifyBuf b d => exact commandCase_of_answersTo h rfl (by decide) (by decide) (answersTo_runCrcVerifyBuf b d s)
  | buildWrite a d => exact commandCase_of_answersTo h rfl (by decide) (by decide) (answersTo_runBuildWrite a d s)
  | buildRead a w => exact commandCase_of_answersTo h rfl (by decide) (by decide) (answersTo_runBuildRead a w s)
  | send d => exact send_cases h
  | receive n r => exact receive_cases h
  | frameWrite => cases hf
  | frameRead => cases hf

/-- A command issued while BUSY is rejected with no other write (R27, R203). -/
theorem exec_of_busy {i : Instr} {s : State} (hf : i.isFrame = false) (hb : s.busy = true) :
    exec i s = .next (s.withAck .rejectedBusy) := by
  cases i with
  | frameWrite => cases hf
  | frameRead => cases hf
  | _ => exact issue_of_busy hb

/-- A wire frame that arrives joins the tail of RXQ (R37; log 8). -/
theorem exec_of_isFrame {i : Instr} (hf : i.isFrame = true) (s : State) : exec i s = .next (peerAppend (encode i) s) := by
  cases i with
  | frameWrite => rfl
  | frameRead => rfl
  | _ => cases hf

end Sys2Proof.Machine

/-! # What a poll leaves alone -/

namespace Sys2Proof.Machine

/-- What follows the drain of a poll leaves the channel, CUR and the reserved bits of STATUS as they are (R165 to R167): it
writes the receiver's registers and, when it ends the RECEIVE, the response registers and the other fields of STATUS. -/
structure SamePollFrame (s t : State) : Prop where
  reserved : statusReserved t.status = statusReserved s.status
  cur : t.cur = s.cur
  txq : t.txq = s.txq
  txlog : t.txlog = s.txlog
  rxq : t.rxq = s.rxq

theorem complete_samePollFrame (s : State) : SamePollFrame s (complete s) where
  reserved := by simp [complete]
  cur := rfl
  txq := rfl
  txlog := rfl
  rxq := rfl

theorem fail_samePollFrame (s : State) : SamePollFrame s (fail s) where
  reserved := by simp [fail]
  cur := rfl
  txq := rfl
  txlog := rfl
  rxq := rfl

@[simp] theorem busy_complete (s : State) : (complete s).busy = false := busy_finish _ _
@[simp] theorem done_complete (s : State) : (complete s).done = true := done_finish _ _
@[simp] theorem err_complete (s : State) : (complete s).err = ErrKind.ok.code := err_finish _ _
@[simp] theorem busy_fail (s : State) : (fail s).busy = false := busy_raise _ _
@[simp] theorem done_fail (s : State) : (fail s).done = true := done_raise _ _
@[simp] theorem err_fail (s : State) : (fail s).err = ErrKind.timeout.code := err_raise _ _

/-- Of the four ends of a poll, completion, one tick more, the next attempt and Timeout, none touches the transmit side,
CUR or the reserved STATUS bits, or drains once more (R163, R166, R167). -/
theorem conclude_samePollFrame (s : State) : SamePollFrame s (conclude s) := by
  rcases conclude_cases s with ⟨_, e⟩ | ⟨_, ⟨_, e⟩ | ⟨_, _, e⟩ | ⟨_, _, e⟩⟩ <;> rw [e]
  · exact complete_samePollFrame s
  · exact ⟨rfl, rfl, rfl, rfl, rfl⟩
  · exact ⟨rfl, rfl, rfl, rfl, rfl⟩
  · obtain ⟨h1, h2, h3, h4, h5⟩ := fail_samePollFrame { s with frElapsed := s.frElapsed + 1 }
    exact ⟨h1, h2, h3, h4, h5⟩

/-- A poll that does not end the RECEIVE writes no response register (R166, R167). -/
theorem conclude_sameResponse {s : State} (h : (conclude s).busy = true) : SameResponse s (conclude s) := by
  rcases conclude_cases s with ⟨_, e⟩ | ⟨_, ⟨_, e⟩ | ⟨_, _, e⟩ | ⟨_, _, e⟩⟩ <;> rw [e] at h ⊢
  · simp at h
  · exact ⟨rfl, rfl, rfl, rfl⟩
  · exact ⟨rfl, rfl, rfl, rfl⟩
  · simp at h

/-- A poll as a whole empties RXQ and touches nothing else of these (R163, R164). -/
theorem poll_samePollFrame (s : State) : SamePollFrame { s with rxq := [] } (poll s) := by
  obtain ⟨scan, off, len, st, e⟩ := advance_frame (drain s)
  have h := conclude_samePollFrame (searchUpdate (drain s) scan off len st)
  rw [poll, e]
  exact ⟨h.reserved, h.cur, h.txq, h.txlog, h.rxq⟩

theorem poll_sameResponse {s : State} (h : (poll s).busy = true) : SameResponse s (poll s) := by
  obtain ⟨scan, off, len, st, e⟩ := advance_frame (drain s)
  rw [poll, e] at h ⊢
  obtain ⟨h1, h2, h3, h4⟩ := conclude_sameResponse h
  exact ⟨h1, h2, h3, h4⟩

/-! # What a step can do to the state -/

/-- The ways in which a step leaves the state `s`, told by what is taken off `inputs` and what becomes of the registers and
the channel. `StepCase` tells them by what is decoded; here the bytes are those of the instruction, and a frame of the
table is PEER bytes like any others. -/
inductive StepEffect (s : State) : State → Prop where
  /-- No agent takes a step. -/
  | still : s.inputs = [] → StepEffect s s
  /-- HOST issues a command (R27). -/
  | command {i : Instr} {es : List Event} {t : State} : s.inputs = .issue (encode i) :: es →
      i.isFrame = false → CommandCase i { s with inputs := es } t → StepEffect s t
  /-- HOST issues an illegal code (R83). -/
  | illegal {bs : List Byte} {es : List Event} {c : Byte} : s.inputs = .issue bs :: es →
      decodeRecord bs = .error (.illegalCode c) →
      StepEffect s { s with inputs := es, ack := some (if s.busy then .rejectedBusy else .rejectedIllegal) }
  /-- PEER delivers bytes (R37). -/
  | peer {bs : List Byte} {es : List Event} : s.inputs = .peer bs :: es →
      StepEffect s { s with inputs := es, rxq := s.rxq ++ bs }
  /-- WIRE finds TXQ empty (log 13). -/
  | wireIdle {es : List Event} : s.inputs = .wire :: es → s.txq = [] → StepEffect s { s with inputs := es }
  /-- WIRE sends a byte (R38, R39). -/
  | wire {b : Byte} {q : List Byte} {es : List Event} : s.inputs = .wire :: es → s.txq = b :: q →
      StepEffect s { s with inputs := es, txq := q, txlog := s.txlog ++ [b] }
  /-- A tick passes while no RECEIVE runs (R168). -/
  | tickIdle {es : List Event} : s.inputs = .tick :: es → s.busy = false → StepEffect s { s with inputs := es }
  /-- A tick polls (R163). -/
  | poll {es : List Event} : s.inputs = .tick :: es → s.busy = true → StepEffect s (poll { s with inputs := es })
  /-- Reset is asserted (R230). -/
  | reset {es : List Event} : s.inputs = .reset :: es → StepEffect s (warmReset { s with inputs := es })

/-- `step` answers a next state in no other way. -/
theorem step_effect {s t : State} (h : step s = .next t) : StepEffect s t := by
  cases step_cases h with
  | still hi => exact .still hi
  | command hi hd hx =>
    obtain ⟨_, hf, rfl⟩ := decodeRecord_eq_ok hd
    exact .command hi hf (command_cases hf hx)
  | illegal hi hd => rw [issueIllegal_eq]; exact .illegal hi hd
  | frame hi hd hx =>
    obtain ⟨_, hf, rfl⟩ := decodeFrame_eq_ok hd
    rw [exec_of_isFrame hf] at hx
    cases hx
    exact .peer hi
  | arrive hi _ => exact .peer hi
  | @wire es hi =>
    rcases wireStep_cases { s with inputs := es } with ⟨hq, e⟩ | ⟨b, q, hq, e⟩ <;> rw [e]
    · exact .wireIdle hi hq
    · exact .wire hi hq
  | @tick es hi =>
    rcases tick_cases { s with inputs := es } with ⟨hb, e⟩ | ⟨hb, e⟩ <;> rw [e]
    · exact .tickIdle hi hb
    · exact .poll hi hb
  | reset hi => exact .reset hi

end Sys2Proof.Machine

/-! # Every part of a step keeps the invariant -/

namespace Sys2Proof.Machine

/-! ### What a search that is done says of its buffer, in the words of the invariant -/

/-- A search that is done without a legal header has none in its buffer. -/
theorem SearchDone.firstHeader_eq_none {s : State} (h : SearchDone s)
    (hs : s.frState = .searchingHeader ∨ s.frState = .headerFoundAwaitingLength) : firstHeader s.frBuf = none := by
  rw [Machine.firstHeader_eq_none]
  intro j
  rcases hs with hs | hs <;> simp only [SearchDone, hs] at h
  · exact (h.1 j).not_headerAt
  · obtain ⟨hshort, _, hend⟩ := h
    by_cases hj : j < s.frOff
    · exact (hshort j hj).not_headerAt
    · by_contra hh
      have := headerAt_lt (by simpa using hh : headerAt s.frBuf j = true)
      omega

/-- A buffer that ends in `5A A5` has a header without its length byte there. -/
theorem not_shortAt_of_endsInHeader {b : List Byte} (h : b.drop (b.length - 2) = [Config.hdr1, Config.hdr2]) :
    ¬ShortAt b (b.length - 2) := by
  have hl : 2 ≤ b.length := by have := congrArg List.length h; simp at this; omega
  have at_ (i : Nat) : b[b.length - 2 + i]? = [Config.hdr1, Config.hdr2][i]? := by rw [← h, List.getElem?_drop]
  intro hs
  obtain ⟨_, hlen, _⟩ := hs ⟨at_ 0, at_ 1⟩
  rw [at_ 2] at hlen
  cases hlen

/-- A slice that begins at a legal header and is as long as its length byte says is shaped as a frame (R70, R166). -/
theorem frameShaped_slice {b : List Byte} {off : Nat} {len : Byte} (h : headerAt b off = true)
    (hl : b[off + 2]? = some len) (hend : off + 3 + len.toNat ≤ b.length) :
    frameShaped (slice b off (off + 3 + len.toNat)) = true := by
  obtain ⟨⟨h0, h1⟩, len', hl', h5⟩ := (headerAt_iff b off).1 h
  rw [hl] at hl'; cases hl'
  obtain ⟨r, hr⟩ : ∃ r, b.drop off = Config.hdr1 :: Config.hdr2 :: len :: r := by
    refine ⟨b.drop (off + 3), ?_⟩
    obtain ⟨_, g0⟩ := List.getElem?_eq_some_iff.1 h0
    obtain ⟨_, g1⟩ := List.getElem?_eq_some_iff.1 h1
    obtain ⟨_, g2⟩ := List.getElem?_eq_some_iff.1 hl
    rw [List.drop_eq_getElem_cons (by omega), List.drop_eq_getElem_cons (by omega),
      List.drop_eq_getElem_cons (by omega), g0, g1, g2]
  have hrl : len.toNat ≤ r.length := by have := congrArg List.length hr; simp at this; omega
  have hn : off + 3 + len.toNat - off = len.toNat + 3 := by omega
  simp [slice, hr, hn, frameShaped, Config.minLen, h5, hrl]

/-- The invariant says nothing of the channel and of the model's own fields. -/
theorem Inv.of_channel {s : State} (h : Inv s) (rxq txq txlog : List Byte) (ack : Option Ack) (inputs : List Event) :
    Inv { s with rxq := rxq, txq := txq, txlog := txlog, ack := ack, inputs := inputs } :=
  Inv.of_sameRegisters (s := s)
    ⟨rfl, rfl, ⟨rfl, rfl, rfl, rfl⟩, ⟨rfl, rfl, rfl, rfl, rfl, rfl, rfl, rfl, rfl⟩⟩ h

/-- The state after the first reset is of the invariant: nothing runs and nothing is reported (R40, R230). -/
theorem reset_inv : Inv State.reset where
  reserved := by decide
  err := by decide
  cur := .inl rfl
  busy hb := absurd hb (by decide)
  fresh _ _ := ⟨rfl, by decide⟩
  quiet _ := ⟨rfl, .inl rfl⟩
  active hb := absurd hb (by decide)
  elapsed := le_rfl
  attempt := Nat.zero_le _
  running hb := absurd hb (by decide)
  cleared hb := absurd hb (by decide)
  searching hs := by cases hs
  awaiting hs := by cases hs
  accumulating hs := by cases hs
  resData := Nat.zero_le _
  received _ hd := absurd hd (by decide)
  timedOut _ hd := absurd hd (by decide)

/-! ### Commands -/

/-- A command that is accepted from a state of the invariant and ends at once, the receiver untouched, ends in one. -/
theorem Inv.of_finishedWith {e : ErrKind} {c : Byte} {s t : State} (h : Inv s) (hb : s.busy = false)
    (hf : FinishedWith e c s t) (hr : SameReceiver s t) (hc : c ∈ legalCodes)
    (hrec : c = codeReceive → e = .invalidArgument) (ha : Answer e t.resData) : Inv t := by
  obtain ⟨hbuf, hst⟩ := h.quiet hb
  have he : e.code.toNat ≤ 3 := by rcases ha.kind with rfl | rfl | rfl <;> decide
  have notBusy {p : Prop} (hbt : t.busy = true) : p := by rw [hf.busy] at hbt; cases hbt
  have notActive {st : FrState} {p : Prop} (hq : ¬(st = .idle ∨ st = .complete ∨ st = .failed))
      (ht : t.frState = st) : p := by rw [hr.frState] at ht; exact absurd (ht ▸ hst) hq
  have receiveErr (hcur : t.cur = codeReceive) : t.err = ErrKind.invalidArgument.code := by
    rw [hf.err, hrec (hf.cur ▸ hcur)]
  exact {
    reserved := hf.reserved.trans h.reserved
    err := hf.err ▸ he
    cur := .inr (hf.cur ▸ hc)
    busy := fun hbt => notBusy hbt
    fresh := fun _ hd => by rw [hf.done] at hd; cases hd
    quiet := fun _ => by rw [hr.frBuf, hr.frState]; exact ⟨hbuf, hst⟩
    active := fun hbt => notBusy hbt
    elapsed := by rw [hr.frElapsed, hr.frTimeout]; exact h.elapsed
    attempt := by rw [hr.frAttempt, hr.frMaxRetry]; exact h.attempt
    running := fun hbt => notBusy hbt
    cleared := fun hbt => notBusy hbt
    searching := notActive (by decide)
    awaiting := notActive (by decide)
    accumulating := notActive (by decide)
    resData := ha.fits
    received := fun hcur _ herr => absurd ((receiveErr hcur).symm.trans herr) (by decide)
    timedOut := fun hcur _ herr => absurd ((receiveErr hcur).symm.trans herr) (by decide) }

/-- A RECEIVE that starts begins its search with an empty buffer and its whole time (R161, R162). -/
theorem listen_inv {s : State} (h : Inv s) {n : U16} (hn : n ≠ 0) (r : Byte) : Inv (listen n r s) where
  reserved := by rw [statusReserved_listen]; exact h.reserved
  err := by simp
  cur := .inr (by rw [listen_cur]; decide)
  busy _ := ⟨rfl, by simp, by simp⟩
  fresh hb := by simp at hb
  quiet hb := by simp at hb
  active _ := .inl rfl
  elapsed := Nat.zero_le _
  attempt := by change 1 ≤ r.toNat + 1; omega
  running _ := by
    change 0 < n.toNat ∧ 1 ≤ 1
    exact ⟨by bv_omega, le_rfl⟩
  cleared _ := listen_response n r s
  searching _ := ⟨rfl, rfl, by simp [listen]⟩
  awaiting hs := by cases hs
  accumulating hs := by cases hs
  resData := Nat.zero_le _
  received _ hd := by simp at hd
  timedOut _ hd := by simp at hd

/-- Every command keeps the invariant, accepted or not. -/
theorem CommandCase.inv {i : Instr} {s t : State} (hc : CommandCase i s t) (h : Inv s) : Inv t := by
  cases hc with
  | rejected _ => exact h.of_channel s.rxq s.txq s.txlog (some .rejectedBusy) s.inputs
  | answered hb _ hl hr ha =>
    exact h.of_finishedWith hb (answer_finishedWith ..) (answer_sameReceiver ..) hl hr ha
  | sent hb _ _ =>
    exact h.of_finishedWith hb (answer_finishedWith ..) (answer_sameReceiver ..) (by decide)
      (fun hc => absurd hc (by decide)) ⟨.inl rfl, Nat.zero_le _⟩
  | listening _ _ hn => exact listen_inv h hn _

/-! ### Polls -/

/-- What the invariant says of a RECEIVE under way, of its registers other than the search's and without the time that the
poll has yet to count. -/
structure Receiving (s : State) : Prop where
  reserved : statusReserved s.status = 0
  cur : s.cur = codeReceive
  busy : s.busy = true
  done : s.done = false
  err : s.err = 0
  elapsed : s.frElapsed.toNat < s.frTimeout.toNat
  attempt : s.frAttempt.toNat ≤ s.frMaxRetry.toNat + 1
  started : 1 ≤ s.frAttempt.toNat
  cleared : Response s 0 0 [] 0

theorem Inv.receiving {s : State} (h : Inv s) (hb : s.busy = true) : Receiving s where
  reserved := h.reserved
  cur := (h.busy hb).1
  busy := hb
  done := (h.busy hb).2.1
  err := (h.busy hb).2.2
  elapsed := (h.running hb).1
  attempt := h.attempt
  started := (h.running hb).2
  cleared := h.cleared hb

/-- Neither the drain nor the search touches them. -/
theorem Receiving.searchUpdate_drain {s : State} (h : Receiving s) (scan off : Nat) (len : Byte) (st : FrState) :
    Receiving (searchUpdate (drain s) scan off len st) :=
  ⟨h.reserved, h.cur, h.busy, h.done, h.err, h.elapsed, h.attempt, h.started,
    ⟨h.cleared.1, h.cleared.2, h.cleared.3, h.cleared.4⟩⟩

/-- A RECEIVE whose search is done without a frame, with time left in its attempt, is in the invariant. -/
theorem Receiving.inv {s : State} (h : Receiving s) (hd : SearchDone s) (hc : s.frState ≠ .complete) : Inv s where
  reserved := h.reserved
  err := by simp [h.err]
  cur := .inr (by rw [h.cur]; decide)
  busy _ := ⟨h.cur, h.done, h.err⟩
  fresh hb := by rw [h.busy] at hb; cases hb
  quiet hb := by rw [h.busy] at hb; cases hb
  active _ := by
    unfold SearchDone at hd
    split at hd <;> simp_all
  elapsed := h.elapsed.le
  attempt := h.attempt
  running _ := ⟨h.elapsed, h.started⟩
  cleared _ := h.cleared
  searching hs := by
    have hnone := hd.firstHeader_eq_none (.inl hs)
    simp only [SearchDone, hs] at hd
    exact ⟨hd.2, hnone, fun hend => not_shortAt_of_endsInHeader hend (hd.1 _)⟩
  awaiting hs := by
    have hnone := hd.firstHeader_eq_none (.inr hs)
    simp only [SearchDone, hs] at hd
    obtain ⟨_, ⟨h0, h1⟩, hend⟩ := hd
    exact ⟨hend, h0, h1, hnone⟩
  accumulating hs := by simpa only [SearchDone, hs] using hd
  resData := by simp [h.cleared.resData]
  received _ hdone := by rw [h.done] at hdone; cases hdone
  timedOut _ hdone := by rw [h.done] at hdone; cases hdone

/-- A completion returns a frame with the number of its attempt (R166). -/
theorem Receiving.complete_inv {s : State} (h : Receiving s) (hd : SearchDone s) (hc : s.frState = .complete) :
    Inv (complete s) := by
  simp only [SearchDone, hc] at hd
  obtain ⟨hfirst, hlen, hend⟩ := hd
  exact {
    reserved := (complete_samePollFrame s).reserved.trans h.reserved
    err := by simp [ErrKind.code]
    cur := .inr (by rw [(complete_samePollFrame s).cur, h.cur]; decide)
    busy := fun hb => by simp at hb
    fresh := fun _ hdone => by simp at hdone
    quiet := fun _ => ⟨rfl, .inr (.inl hc)⟩
    active := fun hb => by simp at hb
    elapsed := h.elapsed.le
    attempt := h.attempt
    running := fun hb => by simp at hb
    cleared := fun hb => by simp at hb
    searching := fun hs => by cases hc.symm.trans hs
    awaiting := fun hs => by cases hc.symm.trans hs
    accumulating := fun hs => by cases hc.symm.trans hs
    resData := by
      have := minOperandBytes_le
      have := s.frLen.isLt
      change (slice s.frBuf s.frOff (frameEnd s)).length ≤ _
      rw [slice_length, frameEnd]; omega
    received := fun _ _ _ =>
      ⟨frameShaped_slice (firstHeader_eq_some.1 hfirst).1 hlen hend, hc, rfl, h.started⟩
    timedOut := fun _ _ herr => by rw [err_complete] at herr; exact absurd herr (by decide) }

/-- The next attempt begins its search anew, with its whole time (R162, R167). -/
theorem Receiving.retry_inv {s : State} (h : Receiving s) (hm : mayRetry s = true) : Inv (retry s) := by
  have hlt : s.frAttempt.toNat < s.frMaxRetry.toNat + 1 := by simpa [mayRetry] using hm
  have hnext : (s.frAttempt + 1).toNat = s.frAttempt.toNat + 1 := by
    have := s.frMaxRetry.isLt
    bv_omega
  have hr : Receiving (retry s) :=
    ⟨h.reserved, h.cur, h.busy, h.done, h.err, Nat.zero_lt_of_lt h.elapsed,
      by change (s.frAttempt + 1).toNat ≤ s.frMaxRetry.toNat + 1; omega,
      by change 1 ≤ (s.frAttempt + 1).toNat; omega,
      ⟨h.cleared.1, h.cleared.2, h.cleared.3, h.cleared.4⟩⟩
  exact hr.inv ⟨fun j p => by simp [PairAt, retry] at p, rfl⟩ (by simp [retry])

/-- Timeout comes with the last attempt's number and no data (R167, R201). -/
theorem Receiving.fail_inv {s : State} (h : Receiving s) (hm : mayRetry s = false) :
    Inv (fail { s with frElapsed := s.frElapsed + 1 }) := by
  have hlast : s.frMaxRetry.toNat + 1 ≤ s.frAttempt.toNat := by simpa [mayRetry] using hm
  have frame := fail_samePollFrame { s with frElapsed := s.frElapsed + 1 }
  exact {
    reserved := frame.reserved.trans h.reserved
    err := by simp [ErrKind.code]
    cur := .inr (by rw [frame.cur, h.cur]; decide)
    busy := fun hb => by simp at hb
    fresh := fun _ hdone => by simp at hdone
    quiet := fun _ => ⟨rfl, .inr (.inr rfl)⟩
    active := fun hb => by simp at hb
    elapsed := by
      have := h.elapsed
      change (s.frElapsed + 1).toNat ≤ s.frTimeout.toNat
      bv_omega
    attempt := h.attempt
    running := fun hb => by simp at hb
    cleared := fun hb => by simp at hb
    searching := fun hs => by cases hs
    awaiting := fun hs => by cases hs
    accumulating := fun hs => by cases hs
    resData := by change s.resData.length ≤ _; simp [h.cleared.resData]
    received := fun _ _ herr => by rw [err_fail] at herr; exact absurd herr (by decide)
    timedOut := fun _ _ _ => ⟨h.cleared.resData, rfl, le_antisymm h.attempt hlast⟩ }

/-- What follows a search that is done keeps the invariant, whichever of its four ways it goes (R163, R166, R167). -/
theorem Receiving.conclude_inv {s : State} (h : Receiving s) (hd : SearchDone s) : Inv (conclude s) := by
  rcases conclude_cases s with ⟨hc, e⟩ | ⟨hc, ⟨he, e⟩ | ⟨_, hm, e⟩ | ⟨_, hm, e⟩⟩ <;> rw [e]
  · exact h.complete_inv hd hc
  · have hc' : Receiving { s with frElapsed := s.frElapsed + 1 } :=
      { h with
        elapsed := by simpa [expired] using he
        cleared := ⟨h.cleared.1, h.cleared.2, h.cleared.3, h.cleared.4⟩ }
    exact hc'.inv hd hc
  · exact h.retry_inv hm
  · exact h.fail_inv hm

theorem poll_inv {s : State} (h : Inv s) (hb : s.busy = true) : Inv (poll s) := by
  obtain ⟨scan, off, len, st, hd, e⟩ := tick_eq_conclude s h hb
  have ht : poll s = tick s := by simp [tick, hb]
  rw [ht, e]
  exact ((h.receiving hb).searchUpdate_drain scan off len st).conclude_inv hd

/-! ### Steps -/

/-- Reset leaves every register as the first reset does (R230). -/
theorem warmReset_inv (s : State) : Inv (warmReset s) :=
  reset_inv.of_channel s.rxq s.txq s.txlog s.ack s.inputs

/-- The invariant is inductive: whatever agent steps next keeps it. -/
theorem step_inv {s t : State} (h : Inv s) (hs : step s = .next t) : Inv t := by
  have taken (es : List Event) : Inv { s with inputs := es } := h.of_channel s.rxq s.txq s.txlog s.ack es
  cases step_effect hs with
  | still _ => exact h
  | command _ _ hc => exact hc.inv (taken _)
  | illegal _ _ => exact h.of_channel ..
  | peer _ => exact h.of_channel ..
  | wireIdle _ _ => exact taken _
  | wire _ _ => exact h.of_channel ..
  | tickIdle _ _ => exact taken _
  | poll _ hb => exact poll_inv (taken _) hb
  | reset _ => exact warmReset_inv _

end Sys2Proof.Machine

/-! # The obligations on the state -/

namespace Sys2Proof.Proofs

open Machine

/-- Settles O45: the invariant is inductive, case by case over the ways in which a step can go. -/
theorem everyStepKeepsTheInvariant : Obligations.EveryStepKeepsTheInvariant := by
  unfold Obligations.EveryStepKeepsTheInvariant
  exact fun _ _ => step_inv

/-- Settles O46: the invariant holds at reset and says nothing of the channel and of the steps to come. -/
theorem resetStateMeetsTheInvariant : Obligations.ResetStateMeetsTheInvariant := by
  unfold Obligations.ResetStateMeetsTheInvariant
  exact ⟨reset_inv, fun rxq0 txq0 es => reset_inv.of_channel rxq0 txq0 [] none es⟩

/-- Settles O12: PEER bytes that are a frame of the table run as that frame, which appends its encoding, and that is the
bytes themselves. -/
theorem peerBytesJoinTheTail : Obligations.PeerBytesJoinTheTail := by
  unfold Obligations.PeerBytesJoinTheTail
  intro s bs es hi
  simp only [step, hi, fetch, fetchPeer]
  split
  next i hd =>
    obtain ⟨_, hf, rfl⟩ := decodeFrame_eq_ok hd
    exact exec_of_isFrame hf _
  next => rfl

/-- Settles O47: among the effects of a step only PEER's and a poll's write RXQ. -/
theorem onlyPeerAndPollsChangeRxq : Obligations.OnlyPeerAndPollsChangeRxq := by
  unfold Obligations.OnlyPeerAndPollsChangeRxq
  intro s t h
  cases step_effect h with
  | command _ _ hc => cases hc <;> exact .inl rfl
  | peer hi => exact .inr (.inl ⟨_, _, hi, rfl⟩)
  | poll hi hb => exact .inr (.inr ⟨_, hi, hb, (poll_samePollFrame _).rxq⟩)
  | _ => exact .inl rfl

/-- Settles O48: of all commands only a SEND that is not refused writes TXQ. -/
theorem onlyWireAndSendChangeTheTransmitSide : Obligations.OnlyWireAndSendChangeTheTransmitSide := by
  unfold Obligations.OnlyWireAndSendChangeTheTransmitSide
  intro s t h
  cases step_effect h with
  | command hi _ hc =>
    cases hc with
    | sent hb he hq =>
      subst he
      exact .inr (.inr ⟨_, _, hi, hb, rfl, hq⟩)
    | _ => exact .inl ⟨rfl, rfl⟩
  | wire hi hq => exact .inr (.inl ⟨_, _, hi, hq, rfl⟩)
  | poll _ _ => exact .inl ⟨(poll_samePollFrame _).txq, (poll_samePollFrame _).txlog⟩
  | _ => exact .inl ⟨rfl, rfl⟩

/-- Settles O49: an accepted command writes its code, the first byte of its record. -/
theorem curIsWrittenOnlyAtAcceptance : Obligations.CurIsWrittenOnlyAtAcceptance := by
  unfold Obligations.CurIsWrittenOnlyAtAcceptance
  intro s t h
  cases step_effect h with
  | command hi _ hc =>
    cases hc with
    | rejected => exact .inl rfl
    | answered hb he hl => exact .inr (.inr ⟨_, _, _, he ▸ hi, hb, hl, rfl⟩)
    | sent hb he =>
      subst he
      exact .inr (.inr ⟨codeSend, _, _, hi, hb, by decide, rfl⟩)
    | listening hb he =>
      subst he
      exact .inr (.inr ⟨codeReceive, _, _, hi, hb, by decide, rfl⟩)
  | poll _ _ => exact .inl (poll_samePollFrame _).cur
  | reset hi => exact .inr (.inl ⟨_, hi, rfl⟩)
  | _ => exact .inl rfl

/-- Settles O50: acceptance, `finish` and the start of a RECEIVE write the other fields of STATUS only. -/
theorem reservedStatusBitsAreNeverWritten : Obligations.ReservedStatusBitsAreNeverWritten := by
  unfold Obligations.ReservedStatusBitsAreNeverWritten
  intro s t h
  cases step_effect h with
  | command _ _ hc =>
    cases hc with
    | rejected => exact .inl rfl
    | answered => exact .inl (answer_finishedWith ..).reserved
    | sent => exact .inl (answer_finishedWith ..).reserved
    | listening => exact .inl (statusReserved_listen ..)
  | poll _ _ => exact .inl (poll_samePollFrame _).reserved
  | reset hi => exact .inr ⟨_, hi, rfl⟩
  | _ => exact .inl rfl

/-- Settles O51: of all commands only a RECEIVE that starts writes the receiver's registers. -/
theorem onlyReceiveAndPollsChangeTheReceiver : Obligations.OnlyReceiveAndPollsChangeTheReceiver := by
  unfold Obligations.OnlyReceiveAndPollsChangeTheReceiver
  intro s t h
  cases step_effect h with
  | command hi _ hc =>
    cases hc with
    | listening hb he hn =>
      subst he
      exact .inr (.inr (.inr ⟨_, _, _, hi, hb, hn⟩))
    | _ => exact .inl ⟨rfl, rfl, rfl, rfl, rfl, rfl, rfl, rfl, rfl⟩
  | poll hi hb => exact .inr (.inl ⟨_, hi, hb⟩)
  | reset hi => exact .inr (.inr (.inl ⟨_, hi⟩))
  | _ => exact .inl ⟨rfl, rfl, rfl, rfl, rfl, rfl, rfl, rfl, rfl⟩

/-- Settles O52: a poll that leaves LNK BUSY writes no response register. -/
theorem responseRegistersKeepTheirValues : Obligations.ResponseRegistersKeepTheirValues := by
  unfold Obligations.ResponseRegistersKeepTheirValues
  intro s t h
  cases step_effect h with
  | command hi _ hc =>
    cases hc with
    | rejected => exact .inl ⟨rfl, rfl, rfl, rfl⟩
    | answered hb => exact .inr (.inl ⟨rfl, hb, _, _, hi⟩)
    | sent hb => exact .inr (.inl ⟨rfl, hb, _, _, hi⟩)
    | listening hb => exact .inr (.inl ⟨rfl, hb, _, _, hi⟩)
  | @poll es hi hb =>
    cases ht : (poll { s with inputs := es }).busy with
    | false => exact .inr (.inr (.inl ⟨es, hi, hb, rfl⟩))
    | true =>
      obtain ⟨h1, h2, h3, h4⟩ := poll_sameResponse ht
      exact .inl ⟨h1, h2, h3, h4⟩
  | reset hi => exact .inr (.inr (.inr ⟨_, hi⟩))
  | _ => exact .inl ⟨rfl, rfl, rfl, rfl⟩

/-- Settles O1: `step` takes the event off, fetches what it decodes to and runs it. -/
theorem stepRunsTheDecodedInstruction : Obligations.StepRunsTheDecodedInstruction := by
  unfold Obligations.StepRunsTheDecodedInstruction
  intro s bs es i
  constructor
  · intro hi hd; simp only [step, hi, fetch, fetchRecord, hd, perform]
  · intro hi hd; simp only [step, hi, fetch, fetchPeer, hd, perform]

/-- Settles O7: all eight commands are issued alike, and the issue step of a BUSY machine is a rejection. -/
theorem busyCommandsChangeNoState : Obligations.BusyCommandsChangeNoState := by
  unfold Obligations.BusyCommandsChangeNoState
  exact fun _ _ hb hf => exec_of_busy hf hb

/-- Settles O8: each value read off `State.launch`. -/
theorem resetStateHoldsTheResetValues : Obligations.ResetStateHoldsTheResetValues := by
  unfold Obligations.ResetStateHoldsTheResetValues
  exact ⟨rfl, by decide, by decide, by decide, rfl, ⟨rfl, rfl, rfl, rfl⟩, rfl, rfl, rfl, rfl, rfl, rfl, rfl, rfl, rfl, rfl⟩

/-- Settles O11: the two cases of `wireStep` are those of the statement. -/
theorem wireSendsTheHeadByte : Obligations.WireSendsTheHeadByte := by
  unfold Obligations.WireSendsTheHeadByte
  intro s es hi
  have hstep : step s = .next (wireStep { s with inputs := es }) := by simp only [step, hi, fetch, perform]
  rw [hstep]
  constructor
  · intro b r hq; simp [wireStep, hq]
  · intro hq; simp [wireStep, hq]

end Sys2Proof.Proofs

/-! # The memory rules (20_memory.md) -/

namespace Sys2Proof.Machine

/-! ### Acceptance erases the command before it (R27, R61) -/

/-- What an accepted command does is decided by its operands and by the state that its acceptance leaves (R27). -/
theorem exec_eq_of_accept_eq {i : Instr} {c : Byte} {r : List Byte} {s t : State} (hf : i.isFrame = false)
    (hi : encode i = c :: r) (hs : s.busy = false) (ht : t.busy = false) (h : s.accept c = t.accept c) :
    exec i s = exec i t := by
  have issue_eq (run : State → State) : issue c run s = issue c run t := by
    rw [issue_of_idle hs, issue_of_idle ht, h]
  cases i with
  | frameWrite => cases hf
  | frameRead => cases hf
  | _ => cases hi; exact issue_eq _

/-- Acceptance clears the ERR and DONE that an earlier command finished with, and nothing else is left of it in STATUS. -/
theorem statusAccepted_finished_accepted {e : ErrKind} {st : U16} (h : statusBusy st = false) :
    statusAccepted (statusFinished e (statusAccepted st)) = statusAccepted st :=
  status_ext (by simp) (by simp [h]) (by simp) (by simp)

/-- Accepting a command in the state in which the same command left the channel alone undoes all that it wrote. -/
theorem accept_answer {c : Byte} {e : ErrKind} {u : U16} {b : BitVec 1} {d : List Byte} {s : State}
    (h : s.busy = false) : (answer c e u b d s.txq s).accept c = s.accept c := by
  have hst := statusAccepted_finished_accepted (e := e) h
  simp only [answer, State.accept, State.finish, hst]

/-! ### Nothing but the transmit side depends on the transmit side (R64)

The two runs to compare differ in TXQ and TXLOG. An operation is blind to them when its two results differ in no other
field; SEND and WIRE are blind too, although they write TXQ and TXLOG. -/

/-- `s` with these bytes queued and these bytes sent. -/
def State.withTransmit (q l : List Byte) (s : State) : State := { s with txq := q, txlog := l }

/-- What `f` makes of the other fields does not depend on TXQ and TXLOG. -/
def TransmitBlind (f : State → State) : Prop :=
  ∀ s q l, ∃ q' l', f (s.withTransmit q l) = (f s).withTransmit q' l'

/-- `TransmitBlind` for what may stop the machine: with other bytes on the transmit side it answers a next state too. -/
def OutcomeBlind (f : State → Host.Outcome State Fault Refusal) : Prop :=
  ∀ s t q l, f s = .next t → ∃ q' l', f (s.withTransmit q l) = .next (t.withTransmit q' l')

theorem TransmitBlind.comp {f g : State → State} (hf : TransmitBlind f) (hg : TransmitBlind g) :
    TransmitBlind fun s => f (g s) := by
  intro s q l
  obtain ⟨q₁, l₁, e₁⟩ := hg s q l
  obtain ⟨q₂, l₂, e₂⟩ := hf (g s) q₁ l₁
  exact ⟨q₂, l₂, by simp only [e₁, e₂]⟩

/-- A choice between blind operations is blind if its test does not read the transmit side. -/
theorem TransmitBlind.ite {p : State → Prop} [DecidablePred p] {f g : State → State}
    (hp : ∀ s q l, p (s.withTransmit q l) ↔ p s) (hf : TransmitBlind f) (hg : TransmitBlind g) :
    TransmitBlind fun s => if p s then f s else g s := by
  intro s q l
  by_cases h : p s
  · simpa only [hp, if_pos h] using hf s q l
  · simpa only [hp, if_neg h] using hg s q l

theorem TransmitBlind.outcomeBlind {f : State → State} (h : TransmitBlind f) : OutcomeBlind fun s => .next (f s) := by
  intro s _ q l ht
  cases ht
  obtain ⟨q', l', e⟩ := h s q l
  exact ⟨q', l', congrArg _ e⟩

theorem transmitBlind_id : TransmitBlind fun s => s := fun _ q l => ⟨q, l, rfl⟩

theorem transmitBlind_accept (c : Byte) : TransmitBlind (State.accept c) := fun _ q l => ⟨q, l, rfl⟩

theorem transmitBlind_withAck (a : Ack) : TransmitBlind (State.withAck a) := fun _ q l => ⟨q, l, rfl⟩

theorem transmitBlind_raise (k : ErrKind) : TransmitBlind (State.raise k) := fun _ q l => ⟨q, l, rfl⟩

theorem transmitBlind_peerAppend (d : List Byte) : TransmitBlind (peerAppend d) := fun _ q l => ⟨q, l, rfl⟩

theorem transmitBlind_warmReset : TransmitBlind warmReset := fun _ q l => ⟨q, l, rfl⟩

theorem transmitBlind_issueIllegal : TransmitBlind issueIllegal :=
  .ite (fun _ _ _ => Iff.rfl) (transmitBlind_withAck _) (transmitBlind_withAck _)

/-- WIRE writes the transmit side alone (R38, R39). -/
theorem wireStep_eq_withTransmit (s : State) : ∃ q l, wireStep s = s.withTransmit q l := by
  rcases wireStep_cases s with ⟨_, e⟩ | ⟨b, r, _, e⟩
  · exact ⟨s.txq, s.txlog, e⟩
  · exact ⟨r, s.txlog ++ [b], e⟩

theorem transmitBlind_wireStep : TransmitBlind wireStep := by
  intro s q l
  obtain ⟨_, _, e⟩ := wireStep_eq_withTransmit s
  obtain ⟨q', l', e'⟩ := wireStep_eq_withTransmit (s.withTransmit q l)
  exact ⟨q', l', by rw [e, e']; rfl⟩

/-! ### The rules of the commands -/

/-- The operand check reads the operands alone (R205). -/
theorem transmitBlind_checkOperands {ops : List (List Byte)} {run : State → State} (h : TransmitBlind run) :
    TransmitBlind (checkOperands ops run) :=
  .ite (fun _ _ _ => Iff.rfl) (transmitBlind_raise _) h

theorem transmitBlind_runCrc (d : List Byte) : TransmitBlind (runCrc d) :=
  transmitBlind_checkOperands fun _ q l => ⟨q, l, rfl⟩

theorem transmitBlind_runCrcAppend (d : List Byte) : TransmitBlind (runCrcAppend d) :=
  transmitBlind_checkOperands fun _ q l => ⟨q, l, rfl⟩

theorem transmitBlind_runCrcVerify (x : U16) (d : List Byte) : TransmitBlind (runCrcVerify x d) :=
  transmitBlind_checkOperands fun _ q l => ⟨q, l, rfl⟩

theorem transmitBlind_runCrcVerifyBuf (b d : List Byte) : TransmitBlind (runCrcVerifyBuf b d) :=
  transmitBlind_checkOperands fun s q l => ⟨q, l, by unfold compareBuf; split <;> rfl⟩

theorem transmitBlind_runBuildWrite (a : U16) (d : List Byte) : TransmitBlind (runBuildWrite a d) :=
  transmitBlind_checkOperands <|
    .ite (fun _ _ _ => Iff.rfl) (transmitBlind_raise _) fun _ q l => ⟨q, l, rfl⟩

theorem transmitBlind_runBuildRead (a : U16) (w : Byte) : TransmitBlind (runBuildRead a w) :=
  .ite (fun _ _ _ => Iff.rfl) (transmitBlind_raise _) fun _ q l => ⟨q, l, rfl⟩

/-- SEND reads TXQ to append to it, and writes what it makes of it to TXQ alone (R133). -/
theorem transmitBlind_runSend (d : List Byte) : TransmitBlind (runSend d) :=
  transmitBlind_checkOperands fun s q l => ⟨_, l, by rw [sendBytes_eq, sendBytes_eq]; rfl⟩

theorem transmitBlind_runReceive (n : U16) (r : Byte) : TransmitBlind (runReceive n r) :=
  .ite (fun _ _ _ => Iff.rfl) (transmitBlind_raise _) fun _ q l => ⟨q, l, rfl⟩

theorem outcomeBlind_issue {c : Byte} {run : State → State} (h : TransmitBlind run) : OutcomeBlind (issue c run) := by
  intro s t q l ht
  rcases issue_eq_next ht with ⟨hb, rfl⟩ | ⟨hb, rfl⟩
  · exact ⟨q, l, issue_of_busy (s := s.withTransmit q l) hb⟩
  · obtain ⟨q', l', e⟩ := h.comp (transmitBlind_accept c) s q l
    exact ⟨q', l', (issue_of_idle (s := s.withTransmit q l) hb).trans (congrArg _ e)⟩

theorem outcomeBlind_exec (i : Instr) : OutcomeBlind (exec i) := by
  cases i with
  | crc d => exact outcomeBlind_issue (transmitBlind_runCrc d)
  | crcAppend d => exact outcomeBlind_issue (transmitBlind_runCrcAppend d)
  | crcVerify x d => exact outcomeBlind_issue (transmitBlind_runCrcVerify x d)
  | crcVerifyBuf b d => exact outcomeBlind_issue (transmitBlind_runCrcVerifyBuf b d)
  | buildWrite a d => exact outcomeBlind_issue (transmitBlind_runBuildWrite a d)
  | buildRead a w => exact outcomeBlind_issue (transmitBlind_runBuildRead a w)
  | send d => exact outcomeBlind_issue (transmitBlind_runSend d)
  | receive n r => exact outcomeBlind_issue (transmitBlind_runReceive n r)
  | frameWrite => exact (transmitBlind_peerAppend _).outcomeBlind
  | frameRead => exact (transmitBlind_peerAppend _).outcomeBlind

/-! ### The poll -/

/-- The turn that leaves these bytes on the transmit side. -/
def Turn.withTransmit (q l : List Byte) : Turn → Turn
  | .again s => .again (s.withTransmit q l)
  | .stop s => .stop (s.withTransmit q l)

section
variable (q l : List Byte) (s : State)

theorem turnSearching_withTransmit :
    turnSearching (s.withTransmit q l) = (turnSearching s).withTransmit q l := by
  simp only [turnSearching, State.withTransmit]
  split <;> rfl

theorem turnLength_withTransmit : turnLength (s.withTransmit q l) = (turnLength s).withTransmit q l := by
  simp only [turnLength, State.withTransmit]
  split
  · split <;> rfl
  · rfl

theorem turnBody_withTransmit : turnBody (s.withTransmit q l) = (turnBody s).withTransmit q l := by
  simp only [turnBody, Turn.withTransmit, apply_ite (State.withTransmit q l)]
  rfl

/-- A turn reads and writes the receiver's registers alone (R165). -/
theorem turn_withTransmit : turn (s.withTransmit q l) = (turn s).withTransmit q l := by
  have same : (s.withTransmit q l).frState = s.frState := rfl
  cases hs : s.frState with
  | searchingHeader => simp only [turn, same, hs, turnSearching_withTransmit]
  | headerFoundAwaitingLength => simp only [turn, same, hs, turnLength_withTransmit]
  | accumulatingBody => simp only [turn, same, hs, turnBody_withTransmit]
  | _ => simp only [turn, same, hs, Turn.withTransmit]

end

theorem advanceLoop_withTransmit (n : Nat) (q l : List Byte) (s : State) :
    advanceLoop n (s.withTransmit q l) = (advanceLoop n s).withTransmit q l := by
  induction n generalizing s with
  | zero => rfl
  | succ n ih =>
    simp only [advanceLoop, turn_withTransmit]
    cases turn s with
    | again t => exact ih t
    | stop t => rfl

theorem transmitBlind_advance : TransmitBlind advance := fun _ q l => ⟨q, l, advanceLoop_withTransmit _ q l _⟩

/-- Whether the attempt has expired and whether another is left is told by the receiver's registers (R167). -/
theorem transmitBlind_afterCount : TransmitBlind afterCount :=
  .ite (fun _ _ _ => Iff.rfl)
    (.ite (fun _ _ _ => Iff.rfl) (fun _ q l => ⟨q, l, rfl⟩) fun _ q l => ⟨q, l, rfl⟩) transmitBlind_id

theorem transmitBlind_countTime : TransmitBlind countTime :=
  transmitBlind_afterCount.comp fun _ q l => ⟨q, l, rfl⟩

theorem transmitBlind_conclude : TransmitBlind conclude :=
  .ite (fun _ _ _ => Iff.rfl) (fun _ q l => ⟨q, l, rfl⟩) transmitBlind_countTime

theorem transmitBlind_poll : TransmitBlind poll :=
  transmitBlind_conclude.comp (transmitBlind_advance.comp fun _ q l => ⟨q, l, rfl⟩)

theorem transmitBlind_tick : TransmitBlind tick := .ite (fun _ _ _ => Iff.rfl) transmitBlind_poll transmitBlind_id

/-! ### Every step -/

theorem outcomeBlind_perform (f : Fetched) : OutcomeBlind (perform f) := by
  cases f with
  | run i => exact outcomeBlind_exec i
  | illegal => exact transmitBlind_issueIllegal.outcomeBlind
  | notWhole => intro _ _ _ _ h; cases h
  | arrive bytes => exact (transmitBlind_peerAppend bytes).outcomeBlind
  | wire => exact transmitBlind_wireStep.outcomeBlind
  | tick => exact transmitBlind_tick.outcomeBlind
  | reset => exact transmitBlind_warmReset.outcomeBlind

/-- Which step comes next, and what it does outside the transmit side, does not depend on the transmit side. -/
theorem outcomeBlind_step : OutcomeBlind step := by
  intro s t q l h
  have same : (s.withTransmit q l).inputs = s.inputs := rfl
  cases hi : s.inputs with
  | nil =>
    simp only [step, same, hi] at h ⊢
    cases h
    exact ⟨q, l, rfl⟩
  | cons e es =>
    simp only [step, same, hi] at h ⊢
    exact outcomeBlind_perform (fetch e) _ t q l h

end Sys2Proof.Machine

/-! # The obligations on the memory rules -/

namespace Sys2Proof.Proofs

open Machine

/-- Settles O53: while BUSY the rejection repeats itself; otherwise the second acceptance undoes the first command, which
then runs from the same state again. -/
theorem channelFreeCommandsAreIdempotent : Obligations.ChannelFreeCommandsAreIdempotent := by
  unfold Obligations.ChannelFreeCommandsAreIdempotent
  intro s t i hf hsend hreceive h
  cases command_cases hf h with
  | rejected hb => exact ⟨⟨rfl, rfl, rfl⟩, exec_of_busy hf hb⟩
  | answered hb hi =>
    exact ⟨⟨rfl, rfl, rfl⟩, (exec_eq_of_accept_eq hf hi (busy_finish _ _) hb (accept_answer hb)).trans h⟩
  | sent _ he => exact absurd he (hsend _)
  | listening _ he => exact absurd he (hreceive _ _)

/-- Settles O54: the second run differs from the first in TXQ and TXLOG alone, and nothing compared reads them. -/
theorem hostCannotSeeTheTransmitQueue : Obligations.HostCannotSeeTheTransmitQueue := by
  unfold Obligations.HostCannotSeeTheTransmitQueue
  intro s t q l h
  obtain ⟨q', l', e⟩ := outcomeBlind_step s t q l h
  exact ⟨t.withTransmit q' l', e, rfl, rfl, rfl, rfl, ⟨rfl, rfl, rfl, rfl, rfl, rfl, rfl, rfl, rfl⟩⟩

end Sys2Proof.Proofs

/-! # The encoding read both ways (30_encoding.md) -/

namespace Sys2Proof

open Machine

/-! ### Which reader a first byte chooses (R70, R80, R83) -/

/-- The first byte of an encoding is the header's for a frame and a legal code for a command. -/
theorem encode_firstByte (i : Instr) : Laws.FirstByte.Statement i := by
  cases i with
  | crc => exact Laws.FirstByte.crc _
  | crcAppend => exact Laws.FirstByte.crcAppend _
  | crcVerify => exact Laws.FirstByte.crcVerify _ _
  | crcVerifyBuf => exact Laws.FirstByte.crcVerifyBuf _ _
  | buildWrite => exact Laws.FirstByte.buildWrite _ _
  | buildRead => exact Laws.FirstByte.buildRead _ _
  | send => exact Laws.FirstByte.send _
  | receive => exact Laws.FirstByte.receive _ _
  | frameWrite => exact Laws.FirstByte.frameWrite _ _ _ _
  | frameRead => exact Laws.FirstByte.frameRead _ _ _

theorem hdr1_not_legal : Config.hdr1 ∉ legalCodes := by decide

/-- Bytes that begin with the header's first byte are read as a frame, all others as a record. -/
theorem decodePrefix_cons (b : Byte) (r : List Byte) :
    decodePrefix (b :: r) =
      if b = Config.hdr1 then decodeFramePrefix (b :: r) else decodeRecordPrefix (b :: r) := rfl

/-- The bytes of an instruction, whatever follows them, are read by the decoder of its kind. -/
theorem decodePrefix_encode_append (i : Instr) (r : List Byte) :
    decodePrefix (encode i ++ r) =
      if i.isFrame then decodeFramePrefix (encode i ++ r) else decodeRecordPrefix (encode i ++ r) := by
  obtain ⟨b, r', he, hb⟩ := encode_firstByte i
  rw [he, List.cons_append, decodePrefix_cons]
  cases hf : i.isFrame <;> simp only [hf, if_true, Bool.false_eq_true, if_false] at hb
  · have hne : b ≠ Config.hdr1 := fun h => hdr1_not_legal (h ▸ hb)
    simp [hne]
  · simp [hb]

/-- A record that begins with a code outside R80 is rejected as illegal, whatever follows (R83). -/
theorem decodeRecord_of_not_legal {c : Byte} (h : c ∉ legalCodes) (r : List Byte) :
    decodeRecord (c :: r) = .error (.illegalCode c) := by
  have ho : decodeOperands c r = .error (.illegalCode c) := by
    simp only [legalCodes, List.mem_cons, List.not_mem_nil, not_or] at h
    obtain ⟨h1, h2, h3, h4, h5, h6, h7, h8, -⟩ := h
    simp only [decodeOperands, if_neg, h1, h2, h3, h4, h5, h6, h7, h8, not_false_eq_true]
  rw [decodeRecord, decodeRecordPrefix, ho]
  rfl

/-! ### The operands that follow each code (R80, R81) -/

section
variable (r : List Byte)

@[simp] theorem decodeOperands_crc :
    decodeOperands codeCrc r = withSeq r fun d r => .ok (.crc d, r) := rfl
@[simp] theorem decodeOperands_crcAppend :
    decodeOperands codeCrcAppend r = withSeq r fun d r => .ok (.crcAppend d, r) := rfl
@[simp] theorem decodeOperands_crcVerify :
    decodeOperands codeCrcVerify r = withU16 r fun x r => withSeq r fun d r => .ok (.crcVerify x d, r) := rfl
@[simp] theorem decodeOperands_crcVerifyBuf :
    decodeOperands codeCrcVerifyBuf r =
      withSeq r fun b r => withSeq r fun d r => .ok (.crcVerifyBuf b d, r) := rfl
@[simp] theorem decodeOperands_buildWrite :
    decodeOperands codeBuildWrite r = withU16 r fun a r => withSeq r fun d r => .ok (.buildWrite a d, r) := rfl
@[simp] theorem decodeOperands_buildRead :
    decodeOperands codeBuildRead r = withU16 r fun a r => withByte r fun w r => .ok (.buildRead a w, r) := rfl
@[simp] theorem decodeOperands_send :
    decodeOperands codeSend r = withSeq r fun d r => .ok (.send d, r) := rfl
@[simp] theorem decodeOperands_receive :
    decodeOperands codeReceive r = withU16 r fun t r => withByte r fun n r => .ok (.receive t n, r) := rfl

end

/-! ### Reading what was written, whatever follows it -/

theorem seqFits_iff {d : List Byte} : seqFits d = true ↔ d.length < 65536 := decide_eq_true_iff

/-- A command's record is read back up to its last byte (R80, R81, R82). -/
theorem decodeRecordPrefix_encode_append {i : Instr} (he : i.encodable = true) (hf : i.isFrame = false)
    (r : List Byte) : decodeRecordPrefix (encode i ++ r) = .ok (i, r) := by
  cases i with
  | crc d | crcAppend d | send d | crcVerify _ d | buildWrite _ d =>
    simp [encode, decodeRecordPrefix, withSeq_encodeSeq (seqFits_iff.1 he)]
  | crcVerifyBuf b d =>
    obtain ⟨hb, hd⟩ := Bool.and_eq_true_iff.1 he
    simp [encode, decodeRecordPrefix, withSeq_encodeSeq (seqFits_iff.1 hb), withSeq_encodeSeq (seqFits_iff.1 hd)]
  | buildRead x n | receive x n => simp [encode, decodeRecordPrefix]
  | frameWrite | frameRead => cases hf

/-- A frame is read back up to its last byte: its payload is as long as its length byte says (R70, R72, R74, R75). -/
theorem decodeFramePrefix_encode_append {i : Instr} (he : i.encodable = true) (hf : i.isFrame = true)
    (r : List Byte) : decodeFramePrefix (encode i ++ r) = .ok (i, r) := by
  cases i with
  | frameWrite len addr data chk =>
    have hl : payloadLen len = data.length := (decide_eq_true_iff.1 he).symm
    simp [encode, writeBody, decodeFramePrefix, decodeWriteFrame, hl, withBytes_append]
  | frameRead addr bc chk =>
    have hne : Config.opcRead ≠ Config.opcWrite := by decide
    simp [encode, readBody, decodeFramePrefix, decodeReadFrame, hne]
  | _ => cases hf

/-- The common decoder reads back every encoding up to its last byte. -/
theorem decodePrefix_encode_append_eq_ok {i : Instr} (he : i.encodable = true) (r : List Byte) :
    decodePrefix (encode i ++ r) = .ok (i, r) := by
  rw [decodePrefix_encode_append]
  cases hf : i.isFrame
  · exact decodeRecordPrefix_encode_append he hf r
  · exact decodeFramePrefix_encode_append he hf r

/-! ### What each decoder answers: an encodable instruction of its kind, for exactly its bytes -/

theorem decodeRecord_eq_ok_iff {bs : List Byte} {i : Instr} :
    decodeRecord bs = .ok i ↔ i.encodable = true ∧ i.isFrame = false ∧ encode i = bs := by
  refine ⟨decodeRecord_eq_ok, ?_⟩
  rintro ⟨he, hf, rfl⟩
  exact whole_eq_ok.2 (by simpa using decodeRecordPrefix_encode_append he hf [])

theorem decodeFrame_eq_ok_iff {bs : List Byte} {i : Instr} :
    decodeFrame bs = .ok i ↔ i.encodable = true ∧ i.isFrame = true ∧ encode i = bs := by
  refine ⟨decodeFrame_eq_ok, ?_⟩
  rintro ⟨he, hf, rfl⟩
  exact whole_eq_ok.2 (by simpa using decodeFramePrefix_encode_append he hf [])

/-- What the common decoder answers, one of the two kinds' decoders answers. -/
theorem decode_eq_ok {bs : List Byte} {i : Instr} (h : decode bs = .ok i) :
    i.encodable = true ∧ encode i = bs := by
  rw [decode, whole_eq_ok] at h
  match bs, h with
  | b :: r, h =>
    rw [decodePrefix_cons] at h
    split_ifs at h
    · obtain ⟨he, _, hbs⟩ := decodeFrame_eq_ok (whole_eq_ok.2 h)
      exact ⟨he, hbs⟩
    · obtain ⟨he, _, hbs⟩ := decodeRecord_eq_ok (whole_eq_ok.2 h)
      exact ⟨he, hbs⟩

theorem decode_eq_ok_iff {bs : List Byte} {i : Instr} : decode bs = .ok i ↔ i.encodable = true ∧ encode i = bs := by
  refine ⟨decode_eq_ok, ?_⟩
  rintro ⟨he, rfl⟩
  exact whole_eq_ok.2 (by simpa using decodePrefix_encode_append_eq_ok he [])

/-! ### Well-formed instructions -/

/-- The length byte of a well-formed write frame counts opcode, address, payload and checksum (R72). -/
theorem lengthByte_of_wellFormed {len : Byte} {addr : U16} {data : List Byte} {chk : U16}
    (h : (Instr.frameWrite len addr data chk).wellFormed = true) : len.toNat = data.length + 5 := by
  obtain ⟨hl, _⟩ := Bool.and_eq_true_iff.1 h
  exact decide_eq_true_iff.1 hl

/-- Well-formedness asks more than encodability of the wire frames alone. -/
theorem encodable_of_wellFormed {i : Instr} (h : i.wellFormed = true) : i.encodable = true := by
  cases i with
  | frameWrite len addr data chk =>
    have hl := lengthByte_of_wellFormed h
    exact decide_eq_true (by simp [payloadLen, hl])
  | frameRead => rfl
  | _ => exact h

/-- A well-formed frame of the table has the shape that the receiver delimits (R70, R72, R78). -/
theorem frameShaped_encode {i : Instr} (hf : i.isFrame = true) (hw : i.wellFormed = true) :
    frameShaped (encode i) = true := by
  cases i with
  | frameWrite len addr data chk =>
    have hl := lengthByte_of_wellFormed hw
    simp [encode, frameShaped, writeBody, hl]
    omega
  | frameRead addr bc chk => rfl
  | _ => cases hf

end Sys2Proof

/-! # What the machine does with encodings and built frames -/

namespace Sys2Proof.Machine

/-! ### Which events stop a step (R81, R200) -/

theorem exists_issue_eq_next (c : Byte) (run : State → State) (s : State) : ∃ t, issue c run s = .next t := by
  cases hb : s.busy
  · exact ⟨_, issue_of_idle hb⟩
  · exact ⟨_, issue_of_busy hb⟩

theorem exists_exec_eq_next (i : Instr) (s : State) : ∃ t, exec i s = .next t := by
  cases i with
  | frameWrite | frameRead => exact ⟨_, exec_of_isFrame rfl s⟩
  | _ => exact exists_issue_eq_next _ _ s

/-- Whatever an event is, performing it goes on to a next state or is a fault. -/
theorem perform_ne_refused (f : Fetched) (s : State) (r : Refusal) : perform f s ≠ .refused r := by
  cases f with
  | run i =>
    obtain ⟨t, ht⟩ := exists_exec_eq_next i s
    simp [perform, ht]
  | _ => simp [perform]

theorem step_ne_refused (s : State) (r : Refusal) : step s ≠ .refused r := by
  unfold step
  split
  · simp
  · exact perform_ne_refused _ _ _

/-- Bytes that decode to no command, and not for an illegal code, are empty or begin with a legal code (R83). -/
theorem nil_or_legal_of_decodeRecord_error {bs : List Byte} {x : DecodeError} (hd : decodeRecord bs = .error x)
    (hx : ∀ c, x ≠ .illegalCode c) : bs = [] ∨ ∃ c r, bs = c :: r ∧ c ∈ legalCodes := by
  match bs with
  | [] => exact .inl rfl
  | c :: r =>
    refine .inr ⟨c, r, rfl, ?_⟩
    by_contra hc
    rw [decodeRecord_of_not_legal hc] at hd
    cases hd
    exact hx c rfl

/-! ### One agent's step as a run -/

theorem runEvents_singleton (e : Event) (s : State) : runEvents [e] s = perform (fetch e) { s with inputs := [] } := by
  have hstep : Sys2Proof.core.step ({ s with inputs := [e] } : State) = perform (fetch e) { s with inputs := [] } := rfl
  simp only [runEvents, List.length_singleton, Host.Core.run, hstep]
  cases perform (fetch e) { s with inputs := [] } <;> rfl

/-- Issuing the record of a command runs the command (R81). -/
theorem runEvents_issue_encode {i : Instr} (he : i.encodable = true) (hf : i.isFrame = false) (s : State) :
    runEvents [.issue (encode i)] s = exec i { s with inputs := [] } := by
  simp only [runEvents_singleton, fetch, fetchRecord, decodeRecord_eq_ok_iff.2 ⟨he, hf, rfl⟩, perform]

theorem runEvents_tick (s : State) : runEvents [.tick] s = .next (tick { s with inputs := [] }) :=
  runEvents_singleton .tick s

/-! ### Built frames (R87, R131 to R134) -/

/-- A rule whose operands are short enough for every value of the OPEN parameter passes the operand check (R8, R205). -/
theorem checkOperands_of_short {ops : List (List Byte)} (h : ∀ d ∈ ops, d.length ≤ 258) (run : State → State)
    (s : State) : checkOperands ops run s = run s := by
  have := minOperandBytes_le
  rcases checkOperands_cases ops run s with ⟨⟨d, hd, hlong⟩, _⟩ | ⟨_, e⟩
  · have := h d hd
    omega
  · exact e

/-- BUILD_WRITE of up to 250 bytes answers the write frame (R131). -/
theorem exec_buildWrite_eq_answer {s : State} (hb : s.busy = false) (a : U16) {d : List Byte} (hd : d.length ≤ 250) :
    exec (.buildWrite a d) s = .next (answer codeBuildWrite .ok 0 0 (writeFrame a d) s.txq s) := by
  have hcheck := checkOperands_of_short (ops := [d]) (by simp; omega)
  refine (issue_of_idle hb).trans (congrArg _ ?_)
  rw [runBuildWrite, hcheck, if_neg (Nat.not_lt.2 hd)]
  rfl

/-- What a build command makes of the state of its acceptance: an error, or a frame around at most
253 bytes (R131, R132). -/
def Builds (s t : State) : Prop :=
  (∃ k, k ≠ ErrKind.ok ∧ t = s.raise k) ∨
    ∃ body, body.length ≤ 253 ∧ t = ({ s with resData := frameOf body } : State).finish .ok

theorem builds_runBuildWrite (a : U16) (d : List Byte) (s : State) : Builds s (runBuildWrite a d s) := by
  unfold runBuildWrite
  rcases checkOperands_cases [d] _ s with ⟨_, e⟩ | ⟨_, e⟩ <;> rw [e]
  · exact .inl ⟨_, by decide, rfl⟩
  · split_ifs with h
    · exact .inl ⟨_, by decide, rfl⟩
    · have hd : d.length ≤ 250 := Nat.le_of_not_lt h
      exact .inr ⟨writeBody a d, by simp [writeBody]; omega, rfl⟩

theorem builds_runBuildRead (a : U16) (w : Byte) (s : State) : Builds s (runBuildRead a w s) := by
  unfold runBuildRead
  split_ifs
  · exact .inl ⟨_, by decide, rfl⟩
  · exact .inr ⟨readBody a (byteCount w), by simp [readBody], rfl⟩

theorem ErrKind.code_ne_ok {k : ErrKind} (h : k ≠ .ok) : k.code ≠ ErrKind.ok.code := by
  cases k with
  | ok => exact absurd rfl h
  | _ => decide

/-- What a build command that finishes with OK leaves in RES_DATA (R134). -/
theorem Builds.of_ok {s t : State} (h : Builds s t) (he : t.err = ErrKind.ok.code) :
    ∃ body, body.length ≤ 253 ∧ t.resData = frameOf body ∧ t.busy = false := by
  rcases h with ⟨k, hk, rfl⟩ | ⟨body, hlen, rfl⟩
  · exact absurd ((err_raise k s).symm.trans he) (ErrKind.code_ne_ok hk)
  · exact ⟨body, hlen, rfl, busy_finish _ _⟩

/-- A build command issued to an idle machine is accepted and builds (R27). -/
theorem builds_of_exec {s t : State} {i : Instr} (hb : s.busy = false)
    (hi : (∃ a d, i = .buildWrite a d) ∨ ∃ a w, i = .buildRead a w) (h : exec i s = .next t) :
    ∃ c, Builds (s.accept c) t := by
  rcases hi with ⟨a, d, rfl⟩ | ⟨a, w, rfl⟩
  · cases (issue_of_idle hb).symm.trans h
    exact ⟨_, builds_runBuildWrite a d _⟩
  · cases (issue_of_idle hb).symm.trans h
    exact ⟨_, builds_runBuildRead a w _⟩

/-! ### SEND of a write frame (R133) -/

/-- SEND takes the first byte of a frame's body for its opcode. -/
theorem sentOpcode_frameOf_cons (op : Byte) (body : List Byte) : sentOpcode (frameOf (op :: body)) = some op := by
  simp [sentOpcode, frameOf]

/-- SEND of a write frame leaves that frame alone in TXQ. -/
theorem exec_send_writeFrame {s : State} (hb : s.busy = false) (a : U16) {d : List Byte} (hd : d.length ≤ 250) :
    exec (.send (writeFrame a d)) s = .next (answer codeSend .ok 0 0 [] (writeFrame a d) s) := by
  have hdiscard (flush : Bool) : sendDiscards flush (writeFrame a d) = true := by
    simp [sendDiscards, writeFrame, writeBody, sentOpcode_frameOf_cons]
  have hcheck := checkOperands_of_short (ops := [writeFrame a d]) (by simp [length_writeFrame, hd])
  refine (issue_of_idle hb).trans (congrArg _ ?_)
  simp only [runSend, hcheck, sendBytes_eq, hdiscard, if_true]
  rfl

/-! ### CHECK (R87) -/

theorem slice_frameOf_body (body : List Byte) :
    slice (frameOf body) 3 ((frameOf body).length - 2) = body := by
  simp [slice, frameOf]

theorem slice_frameOf_checksum (body : List Byte) :
    slice (frameOf body) ((frameOf body).length - 2) (frameOf body).length = le16 (crc body) := by
  simp [slice, frameOf]

theorem checkCommand_eq_none_iff {res : List Byte} : checkCommand res = none ↔ res.length < 5 := by
  simp [checkCommand]

/-- CHECK of a frame compares its checksum field with the checksum of its body (R73, R87). -/
theorem checkCommand_frameOf (body : List Byte) :
    checkCommand (frameOf body) = some (.crcVerifyBuf (le16 (crc body)) body) := by
  rw [checkCommand, slice_frameOf_body, slice_frameOf_checksum, length_frameOf, if_pos (Nat.le_add_left 5 _)]

/-- CRC_VERIFY_BUF finds a checksum stored low byte first to be right (R55, R107). -/
theorem exec_crcVerifyBuf_le16_crc {s : State} (hb : s.busy = false) {d : List Byte} (hd : d.length ≤ 258) :
    exec (.crcVerifyBuf (le16 (crc d)) d) s = .next (answer codeCrcVerifyBuf .ok 0 1 [] s.txq s) := by
  have hcheck := checkOperands_of_short (ops := [le16 (crc d), d]) (by simp [hd])
  refine (issue_of_idle hb).trans (congrArg _ ?_)
  rw [runCrcVerifyBuf, hcheck]
  simp only [compareBuf, le16, u16Of_hiByte_loByte, decide_true]
  rfl

/-! ### A frame alone in RXQ (R165, R166, R170) -/

/-- The drain at the start of an attempt leaves the whole stream to be searched (R162, R164). -/
theorem AttemptStart.drain_searchReady {s : State} (h : AttemptStart s) : SearchReady (drain s) := by
  simp only [SearchReady, drain_frState, h.frState, drain_frScan, h.frScan]
  exact ⟨fun _ hj => absurd hj (Nat.not_lt_zero _), Nat.zero_le _⟩

/-- The first poll of an attempt returns the frame that RXQ delivers, if it delivers one (R163, R166, R170). -/
theorem AttemptStart.tick_eq_complete {s : State} (h : AttemptStart s) {f : List Byte}
    (hs : streamFrame s.rxq = some f) : ∃ t, tick s = complete t ∧ (complete t).resData = f := by
  have hd := advance_searchDone _ h.drain_searchReady
  have hbuf : (advance (drain s)).frBuf = s.rxq := by
    obtain ⟨_, _, _, _, e⟩ := advance_frame (drain s)
    simp [e, searchUpdate, h.frBuf]
  have hc : (advance (drain s)).frState = .complete := by
    by_contra hc
    rw [← hbuf, hd.streamFrame_eq_none hc] at hs
    cases hs
  refine ⟨advance (drain s), by simp [tick, h.busy, poll, conclude, hc], ?_⟩
  rw [← hbuf, hd.streamFrame_eq_some hc] at hs
  exact Option.some.inj hs

/-- The stream that is one frame delivers that frame (R70, R170). -/
theorem streamFrame_of_frameShaped {f : List Byte} (h : frameShaped f = true) : streamFrame f = some f := by
  match f, h with
  | a :: b :: len :: r, h =>
    simp only [frameShaped, Bool.and_eq_true, beq_iff_eq, decide_eq_true_eq] at h
    obtain ⟨⟨⟨ha, hb⟩, h5⟩, hr⟩ := h
    have hfirst : firstHeader (a :: b :: len :: r) = some 0 :=
      firstHeader_eq_some.2 ⟨by simp [headerAt, ha, hb, h5], fun _ hj => absurd hj (Nat.not_lt_zero _)⟩
    have hend : 0 + 3 + len.toNat = (a :: b :: len :: r).length := by simp [hr]; omega
    simp only [streamFrame, hfirst, List.getElem?_cons_succ, List.getElem?_cons_zero]
    rw [hend, if_pos le_rfl, slice, List.drop_zero, Nat.sub_zero, List.take_length]

end Sys2Proof.Machine

/-! # The obligations on the encoding -/

namespace Sys2Proof.Proofs

open Machine

/-- Settles O3: a record is read by its code, a frame by its header, and each reader undoes its writer. -/
theorem decodeReadsBackEveryEncoding : Obligations.DecodeReadsBackEveryEncoding := by
  unfold Obligations.DecodeReadsBackEveryEncoding
  intro i he
  refine ⟨decode_eq_ok_iff.2 ⟨he, rfl⟩, ?_⟩
  split_ifs with hf
  · exact decodeFrame_eq_ok_iff.2 ⟨he, hf, rfl⟩
  · exact decodeRecord_eq_ok_iff.2 ⟨he, by simpa using hf, rfl⟩

/-- Settles O4: each decoder answers only what encodes to the bytes it was given. -/
theorem everyDecodingEncodesBackToItsBytes : Obligations.EveryDecodingEncodesBackToItsBytes := by
  unfold Obligations.EveryDecodingEncodesBackToItsBytes
  exact fun _ _ => ⟨decode_eq_ok, decodeRecord_eq_ok, decodeFrame_eq_ok⟩

/-- Settles O2: each of the ten byte sequences is the encoding of its instruction. -/
theorem specRecordsDecodeToTheirCommands : Obligations.SpecRecordsDecodeToTheirCommands := by
  unfold Obligations.SpecRecordsDecodeToTheirCommands
  simp only [decodeRecord_eq_ok_iff, decodeFrame_eq_ok_iff]
  decide

/-- Settles O5: a well-formed length byte is five more than the payload's length. -/
theorem wellFormedInstructionsAreEncodable : Obligations.WellFormedInstructionsAreEncodable := by
  unfold Obligations.WellFormedInstructionsAreEncodable
  refine ⟨fun _ => encodable_of_wellFormed, fun len addr data chk h => ?_⟩
  have := lengthByte_of_wellFormed h
  omega

/-- Settles O29: BUILD_WRITE leaves the write frame in RES_DATA, and SEND takes it for one by its opcode. -/
theorem writeTransferLeavesOnlyItsFrameQueued : Obligations.WriteTransferLeavesOnlyItsFrameQueued := by
  unfold Obligations.WriteTransferLeavesOnlyItsFrameQueued
  intro s a d hb hd
  have hfits : (Instr.buildWrite a d).encodable = true := seqFits_iff.2 (by omega)
  have hsendFits : (Instr.send (writeFrame a d)).encodable = true :=
    seqFits_iff.2 (by rw [length_writeFrame]; omega)
  have hbuild :=
    (runEvents_issue_encode hfits rfl s).trans (exec_buildWrite_eq_answer (s := { s with inputs := [] }) hb a hd)
  have hsend (t : State) (ht : t.busy = false) :=
    (runEvents_issue_encode hsendFits rfl t).trans (exec_send_writeFrame (s := { t with inputs := [] }) ht a hd)
  exact ⟨_, _, hbuild, hsend _ (answer_finishedWith ..).busy, rfl, length_writeFrame a d, rfl, rfl,
    (answer_finishedWith ..).err⟩

/-- Settles O30: the checksum of a built frame stands behind its body. -/
theorem checkAcceptsBuiltFrames : Obligations.CheckAcceptsBuiltFrames := by
  unfold Obligations.CheckAcceptsBuiltFrames
  refine ⟨fun _ => checkCommand_eq_none_iff, fun s t i hb hi h he => ?_⟩
  obtain ⟨_, hc⟩ := builds_of_exec hb hi h
  obtain ⟨body, hlen, hres, hbt⟩ := hc.of_ok he
  exact ⟨_, _, hres ▸ checkCommand_frameOf body, exec_crcVerifyBuf_le16_crc hbt (by omega),
    (answer_finishedWith ..).err, rfl⟩

/-- Settles O42: the frame is the whole of the stream that the first poll searches. -/
theorem wellFormedFramesAreReceivedUnchanged : Obligations.WellFormedFramesAreReceivedUnchanged := by
  unfold Obligations.WellFormedFramesAreReceivedUnchanged
  intro s i h hq hf hw
  have hstart : AttemptStart { peerAppend (encode i) s with inputs := [] } :=
    ⟨h.busy, h.frState, h.frBuf, h.frScan, h.frElapsed, h.timeout⟩
  have hstream : streamFrame (s.rxq ++ encode i) = some (encode i) := by
    rw [hq, List.nil_append]
    exact streamFrame_of_frameShaped (frameShaped_encode hf hw)
  obtain ⟨t, ht, hres⟩ := hstart.tick_eq_complete hstream
  refine ⟨_, _, exec_of_isFrame hf s, runEvents_tick _, ?_⟩
  rw [ht]
  exact ⟨hres, err_complete t, done_complete t, busy_complete t⟩

/-- Settles O44: a record that decodes runs, an illegal code is rejected, and PEER's bytes always arrive. -/
theorem stepsStopOnlyOnBrokenRecords : Obligations.StepsStopOnlyOnBrokenRecords := by
  unfold Obligations.StepsStopOnlyOnBrokenRecords
  refine fun s => ⟨step_ne_refused s, fun f h => ?_⟩
  obtain ⟨bs, es, x, hi, hd, hx⟩ := step_eq_fault h
  refine ⟨bs, es, hi, fun i he hf hbs => ?_, nil_or_legal_of_decodeRecord_error hd hx⟩
  rw [decodeRecord_eq_ok_iff.2 ⟨he, hf, hbs⟩] at hd
  cases hd

/-- Settles O6: no operand reader is chosen for a code outside R80, and the issue step writes the ACK alone. -/
theorem illegalCodesAreRejected : Obligations.IllegalCodesAreRejected := by
  unfold Obligations.IllegalCodesAreRejected
  refine ⟨by decide +kernel, fun s c r es hc hi => ?_⟩
  simp only [step, hi, fetch, fetchRecord, decodeRecord_of_not_legal hc, perform, issueIllegal_eq]
  rfl

/-- Settles O41: the frame that joins RXQ is its encoding, written out. -/
theorem arrivingFramesJoinRxq : Obligations.ArrivingFramesJoinRxq := by
  unfold Obligations.ArrivingFramesJoinRxq
  intro s addr chk
  refine ⟨fun len data => ?_, fun bc => ?_⟩
  · rw [exec_of_isFrame rfl]; rfl
  · rw [exec_of_isFrame rfl]; rfl

end Sys2Proof.Proofs

/-! # The checksum and its commands -/

namespace Sys2Proof.Machine

/-! ### The two halves of a word (00_scope.md R9) -/

theorem ushiftRight_eight_eq_hiByte (v : U16) : v >>> 8 = (hiByte v).setWidth 16 := by
  ext i h; interval_cases i <;> simp [hiByte, ← BitVec.getLsbD_eq_getElem]

theorem byte_ushiftRight_eight (b : Byte) : b.setWidth 16 >>> 8 = (0 : U16) := by
  ext i h; interval_cases i <;> simp [← BitVec.getLsbD_eq_getElem]

theorem u16Of_eq_xor (hi lo : Byte) : u16Of hi lo = (hi.setWidth 16 <<< 8) ^^^ lo.setWidth 16 := by
  ext i h; interval_cases i <;> simp [u16Of, ← BitVec.getLsbD_eq_getElem]

theorem byte_setWidth_injective : Function.Injective (BitVec.setWidth 16 : Byte → U16) := by
  intro x y h
  simpa using congrArg (BitVec.setWidth 8) h

/-! ### One turn of the shift register (R100, R102) -/

/-- A turn shifts down, and the bit shifted out decides whether the polynomial is added. -/
theorem crcShift_eq (x : U16) : crcShift x = (x >>> 1) ^^^ (if x.getLsbD 0 then Config.crcPoly else 0) := by
  unfold crcShift
  split <;> simp

/-- A turn is linear over XOR. -/
theorem crcShift_xor (x y : U16) : crcShift (x ^^^ y) = crcShift x ^^^ crcShift y := by
  have hpoly (p q : Bool) : (if p ^^ q then Config.crcPoly else 0) =
      (if p then Config.crcPoly else 0) ^^^ (if q then Config.crcPoly else 0) := by
    cases p <;> cases q <;> decide
  simp only [crcShift_eq, BitVec.getLsbD_xor, BitVec.ushiftRight_xor_distrib, hpoly]
  ac_rfl

/-- The polynomial has its top bit set, so a turn moves the bit shifted out to the top. -/
theorem crcShift_msb (x : U16) : (crcShift x).getLsbD 15 = x.getLsbD 0 := by
  rw [crcShift_eq]
  cases x.getLsbD 0 <;> simp [Config.crcPoly]

/-- A turn loses nothing: its top bit says whether the polynomial was added. -/
theorem crcShift_injective : Function.Injective crcShift := by
  intro x y h
  have hbit : x.getLsbD 0 = y.getLsbD 0 := by rw [← crcShift_msb, h, crcShift_msb]
  have hrest : x >>> 1 = y >>> 1 := by
    rwa [crcShift_eq, crcShift_eq, hbit, BitVec.xor_left_inj] at h
  apply BitVec.eq_of_getLsbD_eq
  intro i _
  cases i with
  | zero => exact hbit
  | succ i => simpa [Nat.add_comm] using congrArg (BitVec.getLsbD · i) hrest

/-- A turn on a byte held above bit 0 only moves it down. -/
theorem crcShift_shiftLeft_succ (b : Byte) {n : Nat} (h : n < 8) :
    crcShift (b.setWidth 16 <<< (n + 1)) = b.setWidth 16 <<< n := by
  have hbit : (b.setWidth 16 <<< (n + 1)).getLsbD 0 = false := by simp
  rw [crcShift, hbit, if_neg Bool.false_ne_true]
  apply BitVec.eq_of_getLsbD_eq
  intro i hi
  have hindex : 1 + i - (n + 1) = i - n := by omega
  have hcarry : 15 ≤ i → b.getLsbD (i - n) = false := fun _ => BitVec.getLsbD_of_ge _ _ (by omega)
  rcases Nat.lt_or_ge i 15 with hlt | hge
  · have hwidth : 1 + i < 16 := by omega
    have hbelow : 1 + i ≤ n ↔ i < n := by omega
    simp [hindex, hwidth, hbelow, hi]
  · simp [hindex, hcarry hge]

/-! ### Eight turns -/

theorem crcShift8_xor (x y : U16) : crcShift8 (x ^^^ y) = crcShift8 x ^^^ crcShift8 y := by
  simp only [crcShift8, crcShift_xor]

theorem crcShift8_injective : Function.Injective crcShift8 := fun _ _ h => by
  simpa only [crcShift8, crcShift_injective.eq_iff] using h

/-- Eight turns bring the high byte down, and only the low byte meets the polynomial. -/
theorem crcShift8_u16Of (hi lo : Byte) : crcShift8 (u16Of hi lo) = hi.setWidth 16 ^^^ tabGen lo := by
  have hhi : crcShift8 (hi.setWidth 16 <<< 8) = hi.setWidth 16 := by
    simp [crcShift8, crcShift_shiftLeft_succ]
  rw [u16Of_eq_xor, crcShift8_xor, hhi, tabGen]

theorem crcShift8_eq (v : U16) : crcShift8 v = (v >>> 8) ^^^ tabGen (loByte v) := by
  rw [ushiftRight_eight_eq_hiByte, ← crcShift8_u16Of, u16Of_hiByte_loByte]

/-! ### The byte update (R100 to R102) -/

/-- The listed table, entry by entry (R100). -/
theorem ctab_eq_tabGen : ∀ i : Byte, ctab i = tabGen i := by decide +kernel

theorem crcUpdate_eq_crcShift8 (reg : U16) (b : Byte) : crcUpdate reg b = crcShift8 (reg ^^^ b.setWidth 16) := by
  have hhigh : (reg ^^^ b.setWidth 16) >>> 8 = reg >>> 8 := by
    rw [BitVec.ushiftRight_xor_distrib, byte_ushiftRight_eight]; simp
  rw [crcShift8_eq, hhigh, crcUpdate, ctab_eq_tabGen]

theorem crcUpdate_left_injective (b : Byte) : Function.Injective (crcUpdate · b) := fun x y h => by
  simpa only [crcUpdate_eq_crcShift8, crcShift8_injective.eq_iff, BitVec.xor_left_inj] using h

theorem crcUpdate_right_injective (reg : U16) : Function.Injective (crcUpdate reg) := fun x y h => by
  simpa only [crcUpdate_eq_crcShift8, crcShift8_injective.eq_iff, BitVec.xor_right_inj,
    byte_setWidth_injective.eq_iff] using h

/-- The byte that equals the register's low byte cancels it, and the high byte is left. -/
theorem crcUpdate_u16Of_lo (hi lo : Byte) : crcUpdate (u16Of hi lo) lo = hi.setWidth 16 := by
  have hcancel : u16Of hi lo ^^^ lo.setWidth 16 = u16Of hi 0 := by simp [u16Of_eq_xor]
  have hzero : tabGen 0 = 0#16 := by decide
  rw [crcUpdate_eq_crcShift8, hcancel, crcShift8_u16Of, hzero, BitVec.xor_zero]

/-! ### The checksum of a sequence (R103, R108 to R111) -/

theorem crc_append (s t : List Byte) : crc (s ++ t) = crcFrom (crc s) t := List.foldl_append

/-- Two registers that differ stay different, whatever bytes follow. -/
theorem crcFrom_injective (t : List Byte) : Function.Injective (crcFrom · t) := by
  induction t with
  | nil => exact fun _ _ h => h
  | cons b t ih => exact ih.comp (crcUpdate_left_injective b)

/-- Two sequences that differ in one byte have different checksums. -/
theorem crc_append_cons_inj {pre post : List Byte} {x y : Byte} :
    crc (pre ++ x :: post) = crc (pre ++ y :: post) ↔ x = y := by
  rw [crc_append, crc_append]
  exact ((crcFrom_injective post).comp (crcUpdate_right_injective (crc pre))).eq_iff

/-- A register's own two bytes, low byte first, bring it to 0. -/
theorem crcFrom_le16_self (reg : U16) : crcFrom reg (le16 reg) = 0 := by
  obtain ⟨hi, lo, rfl⟩ : ∃ hi lo, reg = u16Of hi lo := ⟨_, _, (u16Of_hiByte_loByte reg).symm⟩
  calc crcFrom (u16Of hi lo) (le16 (u16Of hi lo))
      = crcUpdate (crcUpdate (u16Of hi lo) lo) hi := by simp [le16, crcFrom]
    _ = crcUpdate (u16Of 0 hi) hi := by rw [crcUpdate_u16Of_lo]; simp [u16Of]
    _ = 0 := crcUpdate_u16Of_lo 0 hi

/-- The residue (R108). -/
theorem crc_append_le16 (s : List Byte) : crc (s ++ le16 (crc s)) = 0 := by
  rw [crc_append, crcFrom_le16_self]

/-! ### Answers to a command (R27, R28, R205) -/

theorem answer_sameChannel (c : Byte) (e : ErrKind) (u : U16) (b : BitVec 1) (d : List Byte) (s : State) :
    SameChannel s (answer c e u b d s.txq s) := ⟨rfl, rfl, rfl⟩

theorem answer_response (c : Byte) (e : ErrKind) (u : U16) (b : BitVec 1) (d q : List Byte) (s : State) :
    Response (answer c e u b d q s) u b d 0 := ⟨rfl, rfl, rfl, rfl⟩

section
variable {c : Byte} {ops : List (List Byte)} {run : State → State} {s : State} (hb : s.busy = false)
include hb

/-- An over-long operand ends an accepted command with InvalidArgument (R81, R205). -/
theorem issue_checkOperands_of_long (h : ∃ d ∈ ops, Config.maxOperandBytes < d.length) :
    issue c (checkOperands ops run) s = .next (answer c .invalidArgument 0 0 [] s.txq s) := by
  obtain ⟨d, hd, hlong⟩ := h
  rcases checkOperands_cases ops run (s.accept c) with ⟨_, e⟩ | ⟨hfit, _⟩
  · exact (issue_of_idle hb).trans (congrArg _ e)
  · exact absurd hlong (Nat.not_lt.2 (hfit d hd))

/-- Operands within the limit let an accepted command's rule run (R205). -/
theorem issue_checkOperands_of_fit (h : ∀ d ∈ ops, d.length ≤ Config.maxOperandBytes) :
    issue c (checkOperands ops run) s = .next (run (s.accept c)) := by
  rcases checkOperands_cases ops run (s.accept c) with ⟨⟨d, hd, hlong⟩, _⟩ | ⟨_, e⟩
  · exact absurd hlong (Nat.not_lt.2 (h d hd))
  · exact (issue_of_idle hb).trans (congrArg _ e)

/-- What a command with one byte-sequence operand makes of the state when its rule always succeeds. -/
theorem issue_checkOperand_spec {d r : List Byte} {u : U16} {b : BitVec 1}
    (hrun : run (s.accept c) = answer c .ok u b r s.txq s) :
    ∃ t, issue c (checkOperands [d] run) s = .next t ∧ SameReceiver s t ∧ SameChannel s t ∧
      (d.length ≤ Config.maxOperandBytes → FinishedWith .ok c s t ∧ Response t u b r 0) ∧
      (Config.maxOperandBytes < d.length → FinishedWith .invalidArgument c s t ∧ Response t 0 0 [] 0) := by
  rcases Nat.lt_or_ge Config.maxOperandBytes d.length with hlong | hfit
  · exact ⟨_, issue_checkOperands_of_long hb ⟨d, List.mem_singleton_self d, hlong⟩, answer_sameReceiver ..,
      answer_sameChannel .., fun hfit => absurd hlong (Nat.not_lt.2 hfit),
      fun _ => ⟨answer_finishedWith .., answer_response ..⟩⟩
  · have hnext := issue_checkOperands_of_fit (c := c) (run := run) hb (List.forall_mem_singleton.2 hfit)
    rw [hrun] at hnext
    exact ⟨_, hnext, answer_sameReceiver .., answer_sameChannel ..,
      fun _ => ⟨answer_finishedWith .., answer_response ..⟩, fun hlong => absurd hlong (Nat.not_lt.2 hfit)⟩

/-- CRC_VERIFY_BUF of a two-byte buffer compares the checksum with the buffer's word, low byte first (R107). -/
theorem exec_crcVerifyBuf_pair (lo hi : Byte) {d : List Byte} (hd : d.length ≤ Config.maxOperandBytes) :
    exec (.crcVerifyBuf [lo, hi] d) s =
      .next (answer codeCrcVerifyBuf .ok 0 (BitVec.ofBool (decide (crc d = u16Of hi lo))) [] s.txq s) := by
  have := minOperandBytes_le
  exact issue_checkOperands_of_fit hb (by simp [hd]; omega)

/-- CRC_VERIFY_BUF with an over-long operand or a buffer of another length ends with InvalidArgument (R107, R205). -/
theorem exec_crcVerifyBuf_invalid {b d : List Byte}
    (h : Config.maxOperandBytes < d.length ∨ Config.maxOperandBytes < b.length ∨ b.length ≠ 2) :
    exec (.crcVerifyBuf b d) s = .next (answer codeCrcVerifyBuf .invalidArgument 0 0 [] s.txq s) := by
  by_cases hfit : ∀ x ∈ [b, d], x.length ≤ Config.maxOperandBytes
  · have hlen : b.length ≠ 2 := by
      simp only [List.forall_mem_cons] at hfit
      omega
    refine (issue_checkOperands_of_fit hb hfit).trans ?_
    unfold compareBuf
    split
    · exact absurd rfl hlen
    · rfl
  · push Not at hfit
    exact issue_checkOperands_of_long hb hfit

end

theorem ofBool_decide_eq_ite (p : Prop) [Decidable p] : BitVec.ofBool (decide p) = if p then 1 else 0 := by
  by_cases h : p <;> simp [h]

end Sys2Proof.Machine

/-! # The obligations on the checksum engine -/

namespace Sys2Proof.Proofs

open Machine

/-- Settles O14: the listed entries, compared one by one with what the procedure computes. -/
theorem ctabHoldsTheGeneratedEntries : Obligations.CtabHoldsTheGeneratedEntries := by
  unfold Obligations.CtabHoldsTheGeneratedEntries
  exact ctab_eq_tabGen

/-- Settles O15: eight turns are linear, so the high byte only moves down and the low byte picks the table's entry. -/
theorem byteUpdateEqualsBitwiseUpdate : Obligations.ByteUpdateEqualsBitwiseUpdate := by
  unfold Obligations.ByteUpdateEqualsBitwiseUpdate
  exact crcUpdate_eq_crcShift8

/-- Settles O16: one more byte is one more update. -/
theorem checksumFoldsTheBytesInOrder : Obligations.ChecksumFoldsTheBytesInOrder := by
  unfold Obligations.ChecksumFoldsTheBytesInOrder
  exact ⟨rfl, fun s b => crc_append s [b], by decide +kernel⟩

/-- Settles O17: a fold over a concatenation. -/
theorem checksumStreams : Obligations.ChecksumStreams := by
  unfold Obligations.ChecksumStreams
  exact crc_append

/-- Settles O18: the register's own bytes cancel it. -/
theorem checksumResidueIsZero : Obligations.ChecksumResidueIsZero := by
  unfold Obligations.ChecksumResidueIsZero
  exact crc_append_le16

/-- Settles O19: the checksum is injective in each byte, and a flipped bit makes another byte. -/
theorem singleBitFlipChangesTheChecksum : Obligations.SingleBitFlipChangesTheChecksum := by
  unfold Obligations.SingleBitFlipChangesTheChecksum
  intro pre post b k hk h
  have hbyte : b ^^^ ((1 : Byte) <<< k) = b := crc_append_cons_inj.1 h
  have hflip := congrArg (BitVec.getLsbD · k) hbyte
  simp [hk] at hflip

/-- Settles O20: past the operand check the rule writes RES_U16 and finishes. -/
theorem crcGivesTheChecksum : Obligations.CrcGivesTheChecksum := by
  unfold Obligations.CrcGivesTheChecksum
  exact fun s d hb => ⟨rfl, issue_checkOperand_spec hb rfl⟩

/-- Settles O21: RES_DATA is the sequence with its checksum behind it, so the residue of O18 is its checksum. -/
theorem crcAppendAddsTheChecksum : Obligations.CrcAppendAddsTheChecksum := by
  unfold Obligations.CrcAppendAddsTheChecksum
  intro s d hb
  obtain ⟨t, ht, hrecv, hchan, hok, hlong⟩ : ∃ t, exec (.crcAppend d) s = .next t ∧ _ :=
    issue_checkOperand_spec (d := d) (r := d ++ le16 (crc d)) hb rfl
  refine ⟨rfl, t, ht, hrecv, hchan, fun hd => ?_, hlong⟩
  obtain ⟨hfin, hres⟩ := hok hd
  refine ⟨hfin, hres, ?_, ?_⟩
  · rw [hres.resData, List.length_append, length_le16]
  · rw [hres.resData, crc_append_le16]

/-- Settles O22: the rule writes the comparison's Boolean and finishes with OK either way. -/
theorem crcVerifyComparesTheChecksum : Obligations.CrcVerifyComparesTheChecksum := by
  unfold Obligations.CrcVerifyComparesTheChecksum
  intro s c d hb
  rw [← ofBool_decide_eq_ite]
  exact ⟨rfl, issue_checkOperand_spec hb rfl⟩

/-- Settles O23: a buffer of two bytes is compared; every other operand is refused. -/
theorem crcVerifyBufComparesTheBuffer : Obligations.CrcVerifyBufComparesTheBuffer := by
  unfold Obligations.CrcVerifyBufComparesTheBuffer
  intro s b d hb
  refine ⟨rfl, ?_⟩
  by_cases hbad : Config.maxOperandBytes < d.length ∨ Config.maxOperandBytes < b.length ∨ b.length ≠ 2
  · refine ⟨_, exec_crcVerifyBuf_invalid hb hbad, answer_sameReceiver .., answer_sameChannel ..,
      fun b0 b1 hd hpair => ?_, fun _ => ⟨answer_finishedWith .., answer_response ..⟩⟩
    have := minOperandBytes_le
    have hlen : b.length = 2 := congrArg List.length hpair
    omega
  · have hfit : d.length ≤ Config.maxOperandBytes := by omega
    obtain ⟨lo, hi, rfl⟩ := List.length_eq_two.1 (show b.length = 2 by omega)
    refine ⟨_, exec_crcVerifyBuf_pair hb lo hi hfit, answer_sameReceiver .., answer_sameChannel ..,
      fun b0 b1 _ hpair => ?_, fun h => absurd h hbad⟩
    cases hpair
    rw [← ofBool_decide_eq_ite]
    exact ⟨answer_finishedWith .., answer_response ..⟩

end Sys2Proof.Proofs

/-! # What the frame encoder's commands answer (41_frame_encoder.md) -/

namespace Sys2Proof.Machine

/-! ### The built frames, byte for byte (R74, R75, R131, R132) -/

theorem writeFrame_eq (a : U16) (d : List Byte) :
    writeFrame a d = [0x5A, 0xA5, BitVec.ofNat 8 (d.length + 5), 0x82, hiByte a, loByte a] ++ d ++
      le16 (crc ([0x82, hiByte a, loByte a] ++ d)) := rfl

theorem readFrame_eq (a : U16) (w : Byte) :
    readFrame a w = [0x5A, 0xA5, 0x06, 0x83, hiByte a, loByte a, byteCount w] ++
      le16 (crc [0x83, hiByte a, loByte a, byteCount w]) := rfl

/-- The byte count is told by its value: twice the words, in one byte (D11). -/
theorem eq_byteCount {w bc : Byte} (h : bc.toNat = 2 * w.toNat % 256) : bc = byteCount w := by
  apply BitVec.eq_of_toNat_eq
  rw [h, byteCount, BitVec.toNat_ofNat]

/-! ### The build commands (R131, R132, R205) -/

section
variable {s : State} (hb : s.busy = false) (a : U16)
include hb

/-- BUILD_WRITE checks its operand's length before it counts the data (R205). -/
theorem exec_buildWrite_of_long {d : List Byte} (h : Config.maxOperandBytes < d.length) :
    exec (.buildWrite a d) s = .next (answer codeBuildWrite .invalidArgument 0 0 [] s.txq s) :=
  issue_checkOperands_of_long hb ⟨d, List.mem_singleton_self d, h⟩

/-- BUILD_WRITE of more data than a frame can hold is out of range (R131). -/
theorem exec_buildWrite_of_gt {d : List Byte} (h : 250 < d.length) (hfit : d.length ≤ Config.maxOperandBytes) :
    exec (.buildWrite a d) s = .next (answer codeBuildWrite .outOfRange 0 0 [] s.txq s) :=
  (issue_checkOperands_of_fit hb (List.forall_mem_singleton.2 hfit)).trans (congrArg _ (if_pos h))

/-- BUILD_READ of up to 128 words answers the read frame (R132). -/
theorem exec_buildRead_eq_answer {w : Byte} (h : w.toNat ≤ 128) :
    exec (.buildRead a w) s = .next (answer codeBuildRead .ok 0 0 (readFrame a w) s.txq s) :=
  (issue_of_idle hb).trans (congrArg _ (if_neg (Nat.not_lt.2 h)))

/-- BUILD_READ of more than 128 words is out of range (R132). -/
theorem exec_buildRead_of_gt {w : Byte} (h : 128 < w.toNat) :
    exec (.buildRead a w) s = .next (answer codeBuildRead .outOfRange 0 0 [] s.txq s) :=
  (issue_of_idle hb).trans (congrArg _ (if_pos h))

end

/-- An answer whose ERR reads as OK is one that finished with OK (R84). -/
theorem eq_ok_of_answer_err {c : Byte} {e : ErrKind} {u : U16} {b : BitVec 1} {d q : List Byte} {s : State}
    (h : (answer c e u b d q s).err = ErrKind.ok.code) : e = .ok := by
  by_contra he
  exact ErrKind.code_ne_ok he ((answer_finishedWith ..).err.symm.trans h)

/-- A build command that ends with OK leaves a frame around a body that has an opcode and an address at least, and that
fits the length byte (R72, R131, R132). -/
theorem exists_body_of_built {s t : State} {i : Instr} (hb : s.busy = false)
    (hi : (∃ a d, i = .buildWrite a d) ∨ ∃ a w, i = .buildRead a w) (h : exec i s = .next t)
    (he : t.err = ErrKind.ok.code) : ∃ body, 3 ≤ body.length ∧ body.length ≤ 253 ∧ t.resData = frameOf body := by
  rcases hi with ⟨a, d, rfl⟩ | ⟨a, w, rfl⟩
  · rcases Nat.lt_or_ge 250 d.length with hgt | hle
    · rcases Nat.lt_or_ge Config.maxOperandBytes d.length with hlong | hfit
      · cases (exec_buildWrite_of_long hb a hlong).symm.trans h
        cases eq_ok_of_answer_err he
      · cases (exec_buildWrite_of_gt hb a hgt hfit).symm.trans h
        cases eq_ok_of_answer_err he
    · cases (exec_buildWrite_eq_answer hb a hle).symm.trans h
      have hlen : (writeBody a d).length = d.length + 3 := rfl
      exact ⟨writeBody a d, by omega, by omega, rfl⟩
  · rcases Nat.lt_or_ge 128 w.toNat with hgt | hle
    · cases (exec_buildRead_of_gt hb a hgt).symm.trans h
      cases eq_ok_of_answer_err he
    · cases (exec_buildRead_eq_answer hb a hle).symm.trans h
      have hlen : (readBody a (byteCount w)).length = 4 := rfl
      exact ⟨readBody a (byteCount w), by omega, by omega, rfl⟩

/-! ### The frame invariants (R134) -/

theorem slice_frameOf_header (body : List Byte) : slice (frameOf body) 0 2 = [0x5A, 0xA5] := rfl

theorem slice_frameOf_rest (body : List Byte) :
    slice (frameOf body) 3 (frameOf body).length = body ++ le16 (crc body) := by
  simp [slice, frameOf]

theorem getElem?_frameOf_two (body : List Byte) :
    (frameOf body)[2]? = some (BitVec.ofNat 8 (body.length + 2)) := rfl

/-- The length byte of a body of up to 253 bytes counts the body and the checksum (R72). -/
theorem toNat_lengthByte {body : List Byte} (h : body.length ≤ 253) :
    (BitVec.ofNat 8 (body.length + 2)).toNat = body.length + 2 := by
  rw [BitVec.toNat_ofNat, Nat.mod_eq_of_lt (by omega)]

/-- A built frame has the shape that the receiver delimits (R70, R78). -/
theorem frameShaped_frameOf {body : List Byte} (h3 : 3 ≤ body.length) (h253 : body.length ≤ 253) :
    frameShaped (frameOf body) = true := by
  simp [frameShaped, frameOf, Config.minLen]
  omega

/-- The first poll of an attempt that finds one frame alone in RXQ returns it (R166, R170). -/
theorem AttemptStart.runEvents_tick_of_frameShaped {u : State} (h : AttemptStart u) (hf : frameShaped u.rxq = true) :
    ∃ v, runEvents [.tick] u = .next v ∧ v.resData = u.rxq ∧ v.done = true ∧ v.err = ErrKind.ok.code := by
  have hstart : AttemptStart { u with inputs := [] } :=
    ⟨h.busy, h.frState, h.frBuf, h.frScan, h.frElapsed, h.timeout⟩
  obtain ⟨t, ht, hres⟩ := hstart.tick_eq_complete (streamFrame_of_frameShaped hf)
  exact ⟨complete t, (runEvents_tick u).trans (congrArg _ ht), hres, done_complete t, err_complete t⟩

/-! ### SEND (R133) -/

/-- SEND discards the queue for a write frame, and for a read frame when the parameter says so. -/
theorem sendDiscards_eq_true_iff {flush : Bool} {d : List Byte} :
    sendDiscards flush d = true ↔
      sentOpcode d = some Config.opcWrite ∨ sentOpcode d = some Config.opcRead ∧ flush = true := by
  unfold sendDiscards
  cases sentOpcode d <;> simp

theorem sendDiscards_of_write {d : List Byte} (flush : Bool) (h : sentOpcode d = some Config.opcWrite) :
    sendDiscards flush d = true := sendDiscards_eq_true_iff.2 (.inl h)

theorem sendDiscards_of_read {d : List Byte} (flush : Bool) (h : sentOpcode d = some Config.opcRead) :
    sendDiscards flush d = flush := by
  have hop : Config.opcRead ≠ Config.opcWrite := by decide
  rw [Bool.eq_iff_iff, sendDiscards_eq_true_iff, h]
  simp [hop]

theorem sendDiscards_of_other {d : List Byte} (flush : Bool) (hw : sentOpcode d ≠ some Config.opcWrite)
    (hr : sentOpcode d ≠ some Config.opcRead) : sendDiscards flush d = false := by
  rw [← Bool.not_eq_true, sendDiscards_eq_true_iff]
  exact fun h => h.elim hw fun h => hr h.1

@[simp] theorem answer_txq (c : Byte) (e : ErrKind) (u : U16) (b : BitVec 1) (d q : List Byte) (s : State) :
    (answer c e u b d q s).txq = q := rfl

section
variable {s : State} (hb : s.busy = false) {d : List Byte}
include hb

/-- SEND of an over-long operand sends nothing (R81, R205). -/
theorem exec_send_of_long (h : Config.maxOperandBytes < d.length) :
    exec (.send d) s = .next (answer codeSend .invalidArgument 0 0 [] s.txq s) :=
  issue_checkOperands_of_long hb ⟨d, List.mem_singleton_self d, h⟩

/-- SEND appends its operand to the queue, emptied first or not (R133). -/
theorem exec_send_of_fit (h : d.length ≤ Config.maxOperandBytes) :
    exec (.send d) s = .next (answer codeSend .ok 0 0 []
      (if sendDiscards Config.flushTxOnReadSend d then d else s.txq ++ d) s) := by
  refine (issue_checkOperands_of_fit hb (List.forall_mem_singleton.2 h)).trans (congrArg _ ?_)
  rw [sendBytes_eq]
  cases sendDiscards Config.flushTxOnReadSend d <;> rfl

end

end Sys2Proof.Machine

/-! # The obligations on the frame encoder -/

namespace Sys2Proof.Proofs

open Machine

/-- Settles O24: one of three answers, told by the operand's length. -/
theorem buildWriteBuildsTheFrame : Obligations.BuildWriteBuildsTheFrame := by
  unfold Obligations.BuildWriteBuildsTheFrame
  intro s a d hb
  have hmin := minOperandBytes_le
  refine ⟨rfl, ?_⟩
  rcases Nat.lt_or_ge 250 d.length with hgt | hle
  · rcases Nat.lt_or_ge Config.maxOperandBytes d.length with hlong | hfit
    · exact ⟨_, exec_buildWrite_of_long hb a hlong, answer_sameReceiver .., answer_sameChannel ..,
        fun hle => absurd hgt (Nat.not_lt.2 hle), fun _ hfit => absurd hlong (Nat.not_lt.2 hfit),
        fun _ => ⟨answer_finishedWith .., answer_response ..⟩⟩
    · exact ⟨_, exec_buildWrite_of_gt hb a hgt hfit, answer_sameReceiver .., answer_sameChannel ..,
        fun hle => absurd hgt (Nat.not_lt.2 hle), fun _ _ => ⟨answer_finishedWith .., answer_response ..⟩,
        fun hlong => absurd hlong (Nat.not_lt.2 hfit)⟩
  · rw [← writeFrame_eq]
    exact ⟨_, exec_buildWrite_eq_answer hb a hle, answer_sameReceiver .., answer_sameChannel ..,
      fun _ => ⟨answer_finishedWith .., answer_response .., length_writeFrame a d⟩,
      fun hgt => absurd hgt (Nat.not_lt.2 hle), fun hlong => by omega⟩

/-- Settles O25: the read frame or OutOfRange, told by the number of words. -/
theorem buildReadBuildsTheFrame : Obligations.BuildReadBuildsTheFrame := by
  unfold Obligations.BuildReadBuildsTheFrame
  intro s a w hb
  refine ⟨rfl, ?_⟩
  rcases Nat.lt_or_ge 128 w.toNat with hgt | hle
  · exact ⟨_, exec_buildRead_of_gt hb a hgt, answer_sameReceiver .., answer_sameChannel ..,
      fun hle => absurd hgt (Nat.not_lt.2 hle), fun _ => ⟨answer_finishedWith .., answer_response ..⟩⟩
  · refine ⟨_, exec_buildRead_eq_answer hb a hle, answer_sameReceiver .., answer_sameChannel ..,
      fun _ => ⟨answer_finishedWith .., fun bc hbc => ?_⟩, fun hgt => absurd hgt (Nat.not_lt.2 hle)⟩
    rw [eq_byteCount hbc, ← readFrame_eq]
    exact answer_response ..

/-- Settles O27: both builds put the same frame around a body of 3 to 253 bytes. -/
theorem builtFramesMeetTheFrameInvariants : Obligations.BuiltFramesMeetTheFrameInvariants := by
  unfold Obligations.BuiltFramesMeetTheFrameInvariants
  intro s t i hb hi h he
  obtain ⟨body, h3, h253, hres⟩ := exists_body_of_built hb hi h he
  have hlen := toNat_lengthByte h253
  rw [hres]
  refine ⟨slice_frameOf_header body, ⟨_, getElem?_frameOf_two body, ?_, ?_⟩, ?_, ?_, fun u hu hq => ?_⟩
  · rw [hlen, length_frameOf]; omega
  · omega
  · rw [slice_frameOf_checksum, slice_frameOf_body]
  · rw [slice_frameOf_rest, crc_append_le16]
  · rw [← hq]
    exact hu.runEvents_tick_of_frameShaped (hq ▸ frameShaped_frameOf h3 h253)

/-- Settles O28: the operand's opcode, where it has one, says whether the queue is emptied first. -/
theorem sendQueuesTheBytes : Obligations.SendQueuesTheBytes := by
  unfold Obligations.SendQueuesTheBytes
  intro s d hb
  refine ⟨rfl, ?_⟩
  rcases Nat.lt_or_ge Config.maxOperandBytes d.length with hlong | hfit
  · exact ⟨_, exec_send_of_long hb hlong, answer_sameReceiver .., rfl, rfl, answer_response ..,
      fun _ => ⟨answer_finishedWith .., rfl⟩, fun hfit => absurd hlong (Nat.not_lt.2 hfit)⟩
  · refine ⟨_, exec_send_of_fit hb hfit, answer_sameReceiver .., rfl, rfl, answer_response ..,
      fun hlong => absurd hlong (Nat.not_lt.2 hfit),
      fun _ => ⟨answer_finishedWith .., fun hwrite => ?_, fun hread => ?_, fun hother => ?_⟩⟩
    · rw [answer_txq, sendDiscards_of_write _ (sentOpcode_eq_some.2 hwrite), if_pos rfl]
    · rw [answer_txq, sendDiscards_of_read _ (sentOpcode_eq_some.2 hread)]
    · rw [answer_txq, sendDiscards_of_other, if_neg Bool.false_ne_true] <;> intro hop
      · obtain ⟨h0, h1, h3⟩ := sentOpcode_eq_some.1 hop
        exact hother ⟨h0, h1, .inl h3⟩
      · obtain ⟨h0, h1, h3⟩ := sentOpcode_eq_some.1 hop
        exact hother ⟨h0, h1, .inr h3⟩

end Sys2Proof.Proofs

/-! # The receiver's search and the stream (42_frame_receiver.md R165, R170) -/

namespace Sys2Proof.Machine

/-! ### The loop of `Advance()` ends by itself (R165) -/

theorem turnsLeft_pos (s : State) : 0 < turnsLeft s := by
  unfold turnsLeft; split <;> omega

theorem turnsLeft_le (s : State) : turnsLeft s ≤ 2 * s.frBuf.length + 4 := by
  unfold turnsLeft; split <;> omega

/-- Each `continue` of R165 brings the loop nearer to its end, in any state: a header stands at or after FR_SCAN, and
abandoning it moves FR_SCAN past it. -/
theorem turnsLeft_lt_of_turn_eq_again {s t : State} (h : turn s = .again t) : turnsLeft t < turnsLeft s := by
  unfold turn at h
  split at h
  case h_1 hs =>
    simp only [turnSearching, findHeader] at h
    split at h <;> cases h
    next hi =>
    obtain ⟨k, hk, rfl⟩ := Option.map_eq_some_iff.1 hi
    have := (List.getElem?_eq_some_iff.1 (headerIndex_eq_some hk).2).1
    simp only [List.length_drop] at this
    simp only [turnsLeft, hs]
    omega
  case h_2 hs =>
    unfold turnLength at h
    split at h
    · next hl =>
      have := (List.getElem?_eq_some_iff.1 hl).1
      split at h <;> cases h <;> simp only [turnsLeft, hs] <;> omega
    · cases h
  all_goals cases h

/-- As many turns as the loop still has are enough, and more change nothing. -/
theorem advanceLoop_eq_of_turnsLeft_le {m n : Nat} {s : State} (hm : turnsLeft s ≤ m) (hn : turnsLeft s ≤ n) :
    advanceLoop m s = advanceLoop n s := by
  have hpos := turnsLeft_pos s
  induction m generalizing n s with
  | zero => omega
  | succ m ih =>
    obtain ⟨n, rfl⟩ := Nat.exists_eq_add_one.2 (hpos.trans_le hn)
    cases ht : turn s with
    | stop t => simp only [advanceLoop, ht]
    | again t =>
      have hlt := turnsLeft_lt_of_turn_eq_again ht
      simpa only [advanceLoop, ht] using ih (by omega) (by omega) (turnsLeft_pos t)

/-! ### Bytes that arrive later (R164, R170) -/

theorem getElem?_append_of_eq_some {b : List Byte} {i : Nat} {x : Byte} (h : b[i]? = some x) (q : List Byte) :
    (b ++ q)[i]? = some x := by
  rw [List.getElem?_append_left (List.getElem?_eq_some_iff.1 h).1, h]

theorem PairAt.append {b : List Byte} {i : Nat} (h : PairAt b i) (q : List Byte) : PairAt (b ++ q) i :=
  ⟨getElem?_append_of_eq_some h.1 q, getElem?_append_of_eq_some h.2 q⟩

theorem ShortAt.append {b : List Byte} {i : Nat} (h : ShortAt b i) (hi : i + 1 < b.length) (q : List Byte) :
    ShortAt (b ++ q) i := by
  intro p
  unfold PairAt at p
  rw [List.getElem?_append_left (by omega), List.getElem?_append_left hi] at p
  obtain ⟨len, hlen, h5⟩ := h p
  exact ⟨len, getElem?_append_of_eq_some hlen q, h5⟩

/-- Once the first legal header stands in the stream it stays the first. -/
theorem firstHeader_append {b : List Byte} {i : Nat} (h : firstHeader b = some i) (q : List Byte) :
    firstHeader (b ++ q) = some i := by
  rw [firstHeader_eq_some] at h ⊢
  have := headerAt_lt h.1
  exact ⟨by rw [headerAt_append this]; exact h.1, fun j hj => by rw [headerAt_append (by omega)]; exact h.2 j hj⟩

theorem streamFrame_eq_some_iff {b f : List Byte} :
    streamFrame b = some f ↔ ∃ off len, firstHeader b = some off ∧ b[off + 2]? = some len ∧
      off + 3 + len.toNat ≤ b.length ∧ slice b off (off + 3 + len.toNat) = f := by
  unfold streamFrame
  cases firstHeader b with
  | none => simp
  | some off => cases hlen : b[off + 2]? <;> simp [hlen]

theorem length_slice_frame {b : List Byte} {off : Nat} {len : Byte} (h : off + 3 + len.toNat ≤ b.length) :
    (slice b off (off + 3 + len.toNat)).length = 3 + len.toNat := by
  rw [slice_length]
  omega

/-- A frame that the stream has delivered stays the frame that it delivers. -/
theorem streamFrame_append {b f : List Byte} (h : streamFrame b = some f) (q : List Byte) :
    streamFrame (b ++ q) = some f := by
  obtain ⟨off, len, hfirst, hlen, hend, rfl⟩ := streamFrame_eq_some_iff.1 h
  refine streamFrame_eq_some_iff.2
    ⟨off, len, firstHeader_append hfirst q, getElem?_append_of_eq_some hlen q, by simp; omega, ?_⟩
  rw [slice, slice, List.drop_append_of_le_length (by omega), List.take_append_of_le_length (by simp; omega)]

/-! ### A stream from an index on (R170, R171) -/

theorem pairAt_drop {b : List Byte} {d i : Nat} : PairAt (b.drop d) i ↔ PairAt b (d + i) := by
  simp only [PairAt, List.getElem?_drop, Nat.add_assoc]

theorem shortAt_drop {b : List Byte} {d i : Nat} : ShortAt (b.drop d) i ↔ ShortAt b (d + i) := by
  simp only [ShortAt, pairAt_drop, List.getElem?_drop, Nat.add_assoc]

theorem headerAt_drop (b : List Byte) (d i : Nat) : headerAt (b.drop d) i = headerAt b (d + i) := by
  simp only [headerAt, List.getElem?_drop, Nat.add_assoc]

/-- Bytes before an index below which no legal header stands do not matter to the first one. -/
theorem firstHeader_of_drop {b : List Byte} {d i : Nat} (hd : ∀ j < d, headerAt b j = false)
    (h : firstHeader (b.drop d) = some i) : firstHeader b = some (d + i) := by
  rw [firstHeader_eq_some] at h ⊢
  obtain ⟨hi, hlt⟩ := h
  rw [headerAt_drop] at hi
  refine ⟨hi, fun j hj => ?_⟩
  rcases Nat.lt_or_ge j d with hjd | hjd
  · exact hd j hjd
  · have := hlt (j - d) (by omega)
    rwa [headerAt_drop, Nat.add_sub_cancel' hjd] at this

/-- A slice of a tail is a slice of the whole. -/
theorem slice_drop (b : List Byte) (d i n : Nat) : slice (b.drop d) i (i + n) = slice b (d + i) (d + i + n) := by
  rw [slice, slice, List.drop_drop, Nat.add_sub_cancel_left, Nat.add_sub_cancel_left]

/-- Bytes before an index below which no legal header stands do not matter to the frame either. -/
theorem streamFrame_of_drop {b f : List Byte} {d : Nat} (hd : ∀ j < d, headerAt b j = false)
    (h : streamFrame (b.drop d) = some f) : streamFrame b = some f := by
  obtain ⟨i, len, hfirst, hlen, hend, rfl⟩ := streamFrame_eq_some_iff.1 h
  rw [List.getElem?_drop] at hlen
  rw [List.length_drop] at hend
  refine streamFrame_eq_some_iff.2 ⟨d + i, len, firstHeader_of_drop hd hfirst, by rwa [Nat.add_assoc], by omega, ?_⟩
  rw [Nat.add_assoc, ← slice_drop, Nat.add_assoc]

end Sys2Proof.Machine

/-! # What a poll does to a running RECEIVE (R163 to R167) -/

namespace Sys2Proof.Machine

/-! ### The search between two polls -/

/-- A search that is ready stays ready when more bytes are drained (R164). -/
theorem SearchReady.drain {s : State} (h : SearchReady s) : SearchReady (drain s) := by
  unfold SearchReady at h
  split at h <;> rename_i hs <;> simp only [SearchReady, drain_frState, hs]
  case h_1 =>
    obtain ⟨hshort, hscan⟩ := h
    refine ⟨fun j hj => (hshort j hj).append ?_ _, hscan.trans ?_⟩
    · have hj : j < s.frScan := hj
      omega
    · simp; omega
  case h_2 =>
    obtain ⟨hshort, hpair⟩ := h
    have := pairAt_lt hpair
    exact ⟨fun j (hj : j < s.frOff) => (hshort j hj).append (by omega) _, hpair.append _⟩
  case h_3 => exact ⟨firstHeader_append h.1 _, getElem?_append_of_eq_some h.2 _⟩
  all_goals exact h

/-- A search that is done without a frame is ready to be taken up again. -/
theorem SearchDone.searchReady {s : State} (h : SearchDone s) (hc : s.frState ≠ .complete) : SearchReady s := by
  unfold SearchDone at h
  split at h <;> rename_i hs <;> simp only [SearchReady, hs]
  case h_1 => exact ⟨fun j _ => h.1 j, h.2.le⟩
  case h_2 => exact ⟨h.1, h.2.1⟩
  case h_3 => exact ⟨h.1, h.2.1⟩
  case h_4 => exact hc hs
  all_goals exact h

theorem SearchReady.frState_cases {s : State} (h : SearchReady s) :
    s.frState = .searchingHeader ∨ s.frState = .headerFoundAwaitingLength ∨ s.frState = .accumulatingBody := by
  unfold SearchReady at h
  split at h <;> simp_all

/-- A RECEIVE runs: its search is ready and its attempt has a poll left. -/
structure Polling (s : State) : Prop where
  busy : s.busy = true
  ready : SearchReady s
  elapsed : s.frElapsed.toNat < s.frTimeout.toNat

/-- The channel and the model's own fields do not matter to it. -/
theorem Polling.of_channel {s : State} (h : Polling s) (rxq txq txlog : List Byte) (ack : Option Ack)
    (inputs : List Event) :
    Polling { s with rxq := rxq, txq := txq, txlog := txlog, ack := ack, inputs := inputs } :=
  ⟨h.busy, h.ready, h.elapsed⟩

theorem AttemptStart.polling {s : State} (h : AttemptStart s) : Polling s where
  busy := h.busy
  ready := by
    simp only [SearchReady, h.frState, h.frScan]
    exact ⟨fun _ hj => absurd hj (Nat.not_lt_zero _), Nat.zero_le _⟩
  elapsed := by
    have := h.timeout
    rw [h.frElapsed]
    bv_omega

/-- Draining nothing shows that the search of a state of the invariant is ready. -/
theorem Inv.polling {s : State} (h : Inv s) (hb : s.busy = true) : Polling s where
  busy := hb
  ready := by
    have hready := drain_searchReady { s with rxq := [] } (h.of_channel [] s.txq s.txlog s.ack s.inputs) hb
    have hdrain : drain { s with rxq := [] } = { s with rxq := [] } := by simp [drain, rxDrain]
    rw [hdrain] at hready
    exact hready
  elapsed := (h.running hb).1

/-! ### The four ways in which a poll ends -/

/-- The search of a poll is done: FR_BUF holds the stream, RXQ is empty, and the search registers have these values. -/
abbrev searched (s : State) (scan off : Nat) (len : Byte) (st : FrState) : State :=
  searchUpdate (drain s) scan off len st

/-- What a poll makes of a running RECEIVE, told by the stream and by the time and the attempts left. -/
inductive PollCase (s : State) : State → Prop where
  /-- The stream's frame is whole: it is returned (R166). -/
  | returned {scan off : Nat} {len : Byte} : firstHeader (s.frBuf ++ s.rxq) = some off →
      (s.frBuf ++ s.rxq)[off + 2]? = some len → off + 3 + len.toNat ≤ (s.frBuf ++ s.rxq).length →
      PollCase s (complete (searched s scan off len .complete))
  /-- There is no whole frame yet, and the attempt goes on (R167). -/
  | waiting {scan off : Nat} {len : Byte} {st : FrState} : streamFrame (s.frBuf ++ s.rxq) = none →
      s.frElapsed.toNat + 1 < s.frTimeout.toNat →
      Polling { searched s scan off len st with frElapsed := s.frElapsed + 1 } →
      PollCase s { searched s scan off len st with frElapsed := s.frElapsed + 1 }
  /-- The attempt has used its polls, and another one starts (R162, R167). -/
  | retried : streamFrame (s.frBuf ++ s.rxq) = none → s.frElapsed.toNat + 1 = s.frTimeout.toNat →
      s.frAttempt.toNat < s.frMaxRetry.toNat + 1 →
      PollCase s (startAttempt { drain s with frAttempt := s.frAttempt + 1 })
  /-- The last attempt has used its polls (R167). -/
  | timedOut {scan off : Nat} {len : Byte} {st : FrState} : streamFrame (s.frBuf ++ s.rxq) = none →
      s.frElapsed.toNat + 1 = s.frTimeout.toNat → s.frMaxRetry.toNat + 1 ≤ s.frAttempt.toNat →
      PollCase s (fail { searched s scan off len st with frElapsed := s.frElapsed + 1 })

theorem Polling.toNat_elapsed_add_one {s : State} (h : Polling s) :
    (s.frElapsed + 1).toNat = s.frElapsed.toNat + 1 := by
  have := h.elapsed
  bv_omega

/-- A tick of a running RECEIVE searches what it drains to the end, and what follows is told by FR_STATE (R163). -/
theorem Polling.tick_eq_conclude {s : State} (h : Polling s) :
    ∃ scan off len st, SearchDone (searched s scan off len st) ∧ tick s = conclude (searched s scan off len st) := by
  obtain ⟨scan, off, len, st, e⟩ := advance_frame (drain s)
  refine ⟨scan, off, len, st, ?_, ?_⟩
  · rw [searched, ← e]
    exact advance_searchDone _ h.ready.drain
  · simp only [tick, h.busy, if_true, poll, e, searched]

/-- A tick of a running RECEIVE ends in one of these four ways. -/
theorem Polling.tick_cases {s : State} (h : Polling s) : PollCase s (tick s) := by
  have helapsed := h.elapsed
  have hnext := h.toNat_elapsed_add_one
  obtain ⟨scan, off, len, st, hdone, ht⟩ := h.tick_eq_conclude
  rw [ht]
  rcases conclude_cases (searched s scan off len st) with ⟨hc, e⟩ | ⟨hc, hcount⟩
  · cases (show st = .complete from hc)
    obtain ⟨hfirst, hlen, hend⟩ := hdone
    rw [e]
    exact .returned hfirst hlen hend
  · have hnone := hdone.streamFrame_eq_none hc
    have hused (hexp : expired { searched s scan off len st with frElapsed := s.frElapsed + 1 } = true) :
        s.frElapsed.toNat + 1 = s.frTimeout.toNat := by
      have hle : s.frTimeout.toNat ≤ (s.frElapsed + 1).toNat := by simpa [expired, searchUpdate] using hexp
      omega
    rcases hcount with ⟨hexp, e⟩ | ⟨hexp, hmay, e⟩ | ⟨hexp, hmay, e⟩ <;> rw [e]
    · have hlt : (s.frElapsed + 1).toNat < s.frTimeout.toNat := by simpa [expired, searchUpdate] using hexp
      exact .waiting hnone (hnext ▸ hlt) ⟨h.busy, hdone.searchReady hc, hlt⟩
    · exact .retried hnone (hused hexp) (by simpa [mayRetry, searchUpdate] using hmay)
    · exact .timedOut hnone (hused hexp) (by simpa [mayRetry, searchUpdate] using hmay)

/-- A poll drains RXQ whatever it finds (R164). -/
theorem PollCase.rxq {s t : State} (h : PollCase s t) : t.rxq = [] := by cases h <;> rfl

/-- A poll that leaves LNK BUSY leaves the RECEIVE running. -/
theorem PollCase.polling {s t : State} (hp : Polling s) (hc : PollCase s t) (hb : t.busy = true) : Polling t := by
  cases hc with
  | returned => simp at hb
  | waiting _ _ h => exact h
  | retried =>
    have := hp.elapsed
    exact AttemptStart.polling ⟨hb, rfl, rfl, rfl, rfl, by simp; bv_omega⟩
  | timedOut => simp at hb

/-- The count of the attempts does not wrap (R35). -/
theorem toNat_attempt_add_one {s : State} (h : s.frAttempt.toNat < s.frMaxRetry.toNat + 1) :
    (s.frAttempt + 1).toNat = s.frAttempt.toNat + 1 := by
  have := s.frMaxRetry.isLt
  bv_omega

/-- A poll uses up exactly one of the polls left (R172). -/
theorem PollCase.pollsLeft {s t : State} (hp : Polling s) (hc : PollCase s t) (hb : t.busy = true) :
    pollsLeft t + 1 = pollsLeft s := by
  have helapsed := hp.elapsed
  have hnext := hp.toNat_elapsed_add_one
  cases hc with
  | returned => simp at hb
  | waiting _ hlt _ =>
    simp only [Machine.pollsLeft, searchUpdate, drain_frTimeout, drain_frMaxRetry, drain_frAttempt]
    omega
  | retried _ hend hmay =>
    have hattempt := toNat_attempt_add_one hmay
    have hzero : (0 : U16).toNat = 0 := rfl
    have hleft : s.frMaxRetry.toNat + 1 - s.frAttempt.toNat =
        (s.frMaxRetry.toNat + 1 - (s.frAttempt + 1).toNat) + 1 := by omega
    simp only [Machine.pollsLeft, startAttempt_frMaxRetry, startAttempt_frAttempt, startAttempt_frTimeout,
      startAttempt_frElapsed, drain_frMaxRetry, drain_frTimeout, hleft, Nat.add_mul, Nat.one_mul]
    omega
  | timedOut => simp at hb

/-- A running RECEIVE has a poll left. -/
theorem Polling.pollsLeft_pos {s : State} (h : Polling s) : 0 < pollsLeft s := by
  have := h.elapsed
  simp only [pollsLeft]
  omega

end Sys2Proof.Machine

/-! # Ticks and deliveries as runs -/

namespace Sys2Proof.Machine

/-! ### One agent's step before others -/

theorem step_tick {s : State} {es : List Event} (hi : s.inputs = .tick :: es) :
    step s = .next (tick { s with inputs := es }) := by
  simp only [step, hi, fetch, perform]

theorem tick_of_idle {s : State} (hb : s.busy = false) : tick s = s := by simp [tick, hb]

@[simp] theorem tick_inputs (s : State) : (tick s).inputs = s.inputs := by
  rcases tick_cases s with ⟨_, e⟩ | ⟨_, e⟩ <;> rw [e]
  obtain ⟨scan, off, len, st, e⟩ := advance_frame (drain s)
  rw [e]
  rcases conclude_cases (searchUpdate (drain s) scan off len st) with ⟨_, e⟩ | ⟨_, ⟨_, e⟩ | ⟨_, _, e⟩ | ⟨_, _, e⟩⟩ <;>
    rw [e] <;> rfl

/-- A run whose first step answers a next state goes on from there. -/
theorem runEvents_cons {e : Event} {es : List Event} {s t : State}
    (h : step { s with inputs := e :: es } = .next t) (ht : t.inputs = es) :
    runEvents (e :: es) s = runEvents es t := by
  have hstep : Sys2Proof.core.step ({ s with inputs := e :: es } : State) = .next t := h
  subst ht
  simp only [runEvents, List.length_cons, Host.Core.run, hstep]
  rfl

theorem runEvents_tick_cons (es : List Event) (s : State) :
    runEvents (.tick :: es) s = runEvents es (tick { s with inputs := es }) :=
  runEvents_cons (step_tick rfl) (tick_inputs _)

theorem runEvents_ticks_succ (k : Nat) (s : State) :
    runEvents (ticks (k + 1)) s = runEvents (ticks k) (tick { s with inputs := ticks k }) :=
  runEvents_tick_cons (ticks k) s

theorem runEvents_peer_cons (bs : List Byte) (es : List Event) (s : State) :
    runEvents (.peer bs :: es) s = runEvents es (peerAppend bs s) :=
  runEvents_cons (t := { peerAppend bs s with inputs := es }) (Proofs.peerBytesJoinTheTail _ bs es rfl) rfl

/-- PEER delivers a chunk and a tick passes, before more deliveries. -/
theorem runEvents_deliveries_cons (c : List Byte) (cs : List (List Byte)) (s : State) :
    runEvents (deliveries (c :: cs)) s =
      runEvents (deliveries cs) (tick { s with rxq := s.rxq ++ c, inputs := deliveries cs }) :=
  (runEvents_peer_cons c (.tick :: deliveries cs) s).trans (runEvents_tick_cons _ _)

/-! ### RECEIVE (R161) -/

section
variable {s : State} (hb : s.busy = false)
include hb

theorem exec_receive_of_zero (r : Byte) :
    exec (.receive 0 r) s = .next (answer codeReceive .invalidArgument 0 0 [] s.txq s) :=
  issue_of_idle hb

theorem exec_receive_of_ne {n : U16} (hn : n ≠ 0) (r : Byte) : exec (.receive n r) s = .next (listen n r s) := by
  refine (issue_of_idle hb).trans (congrArg _ ?_)
  rw [runReceive, if_neg hn]
  rfl

/-- A RECEIVE issued before other steps. -/
theorem runEvents_receive_cons {n : U16} (hn : n ≠ 0) (r : Byte) (es : List Event) :
    runEvents (.issue (encode (.receive n r)) :: es) s = runEvents es (listen n r { s with inputs := es }) := by
  have hd : decodeRecord (encode (.receive n r)) = .ok (.receive n r) := decodeRecord_eq_ok_iff.2 ⟨rfl, rfl, rfl⟩
  refine runEvents_cons ?_ rfl
  rw [(Proofs.stepRunsTheDecodedInstruction _ _ es _).1 rfl hd]
  exact exec_receive_of_ne (s := { s with inputs := es }) hb hn r

end

theorem listen_attemptStart {n : U16} (hn : n ≠ 0) (r : Byte) (s : State) : AttemptStart (listen n r s) where
  busy := busy_listen n r s
  frState := rfl
  frBuf := rfl
  frScan := rfl
  frElapsed := rfl
  timeout := hn

/-- An accepted RECEIVE has T polls for each of its R + 1 attempts (R172). -/
theorem pollsLeft_listen (n : U16) (r : Byte) (s : State) : pollsLeft (listen n r s) = n.toNat * (r.toNat + 1) := by
  change (r.toNat + 1 - 1) * n.toNat + (n.toNat - 0) = n.toNat * (r.toNat + 1)
  rw [Nat.add_sub_cancel, Nat.sub_zero, Nat.mul_succ, Nat.mul_comm]

end Sys2Proof.Machine

/-! # Runs of a RECEIVE -/

namespace Sys2Proof.Machine

/-! ### The frame that a stream of deliveries returns (R166, R170) -/

/-- A RECEIVE has returned the frame `f` in its attempt `n` (R166). -/
structure Returned (f : List Byte) (n : U16) (t : State) : Prop where
  resData : t.resData = f
  err : t.err = ErrKind.ok.code
  done : t.done = true
  busy : t.busy = false
  resAttempts : t.resAttempts = n
  frState : t.frState = .complete
  frBuf : t.frBuf = []

/-- Deliveries to an idle machine only fill RXQ (R168). -/
theorem runEvents_deliveries_of_idle (cs : List (List Byte)) {s : State} (hb : s.busy = false) :
    ∃ q, runEvents (deliveries cs) s = .next { s with rxq := q, inputs := [] } := by
  induction cs generalizing s with
  | nil => exact ⟨s.rxq, rfl⟩
  | cons c cs ih =>
    rw [runEvents_deliveries_cons, tick_of_idle (s := { s with rxq := s.rxq ++ c, inputs := deliveries cs }) hb]
    exact ih (s := { s with rxq := s.rxq ++ c, inputs := deliveries cs }) hb

/-- A poll that finds the stream's frame returns it (R166). -/
theorem PollCase.returned_of_streamFrame {s t : State} (hc : PollCase s t) {f : List Byte}
    (hf : streamFrame (s.frBuf ++ s.rxq) = some f) : Returned f s.frAttempt t := by
  have notNone {p : Prop} (hnone : streamFrame (s.frBuf ++ s.rxq) = none) : p := by rw [hf] at hnone; cases hnone
  cases hc with
  | @returned scan off len hfirst hlen hend =>
    obtain ⟨off', len', hfirst', hlen', _, rfl⟩ := streamFrame_eq_some_iff.1 hf
    cases hfirst.symm.trans hfirst'
    cases hlen.symm.trans hlen'
    exact ⟨rfl, err_complete _, done_complete _, busy_complete _, rfl, rfl, rfl⟩
  | waiting hnone | retried hnone | timedOut hnone => exact notNone hnone

theorem streamFrame_eq_none_of_append {b q : List Byte} (h : streamFrame (b ++ q) = none) : streamFrame b = none := by
  cases hb : streamFrame b with
  | none => rfl
  | some f => rw [streamFrame_append hb q] at h; cases h

/-- The attempt of `s` has gone on to `t`: it has drained `q` in `k` polls, and no frame was whole (R164, R167). -/
structure Held (q : List Byte) (k : Nat) (s t : State) : Prop where
  polling : Polling t
  rxq : t.rxq = []
  frBuf : t.frBuf = s.frBuf ++ q
  frElapsed : t.frElapsed.toNat = s.frElapsed.toNat + k
  frTimeout : t.frTimeout = s.frTimeout
  frAttempt : t.frAttempt = s.frAttempt
  resData : t.resData = s.resData

theorem Held.trans {q q' : List Byte} {k k' : Nat} {s t u : State} (h : Held q k s t) (h' : Held q' k' t u) :
    Held (q ++ q') (k + k') s u where
  polling := h'.polling
  rxq := h'.rxq
  frBuf := by rw [h'.frBuf, h.frBuf, List.append_assoc]
  frElapsed := by rw [h'.frElapsed, h.frElapsed, Nat.add_assoc]
  frTimeout := h'.frTimeout.trans h.frTimeout
  frAttempt := h'.frAttempt.trans h.frAttempt
  resData := h'.resData.trans h.resData

/-- A poll with time left that finds no frame holds what it drains (R167). -/
theorem PollCase.held {s t : State} (hp : Polling s) (hc : PollCase s t)
    (hnone : streamFrame (s.frBuf ++ s.rxq) = none) (hlt : s.frElapsed.toNat + 1 < s.frTimeout.toNat) :
    Held s.rxq 1 s t := by
  cases hc with
  | returned hfirst hlen hend =>
    rw [streamFrame_eq_some_iff.2 ⟨_, _, hfirst, hlen, hend, rfl⟩] at hnone
    cases hnone
  | waiting _ _ h => exact ⟨h, rfl, rfl, hp.toNat_elapsed_add_one, rfl, rfl, rfl⟩
  | retried _ hend => omega
  | timedOut _ hend => omega

section
variable {s : State} (h : Polling s) (hq : s.rxq = [])
include h hq

/-- PEER delivers a chunk, a tick passes, and the attempt goes on. -/
theorem Polling.held_of_delivery {c : List Byte} (es : List Event) (hnone : streamFrame (s.frBuf ++ c) = none)
    (hlt : s.frElapsed.toNat + 1 < s.frTimeout.toNat) :
    Held c 1 s (tick { s with rxq := s.rxq ++ c, inputs := es }) := by
  have hp := h.of_channel (s.rxq ++ c) s.txq s.txlog s.ack es
  rw [hq, List.nil_append] at hp ⊢
  obtain ⟨hpoll, hrxq, hbuf, helapsed, htimeout, hattempt, hres⟩ := hp.tick_cases.held hp hnone hlt
  exact ⟨hpoll, hrxq, hbuf, helapsed, htimeout, hattempt, hres⟩

/-- PEER delivers a chunk, a tick passes, and the frame that is now whole is returned. -/
theorem Polling.returned_of_delivery {c f : List Byte} (es : List Event) (hf : streamFrame (s.frBuf ++ c) = some f) :
    Returned f s.frAttempt (tick { s with rxq := s.rxq ++ c, inputs := es }) := by
  have hp := h.of_channel (s.rxq ++ c) s.txq s.txlog s.ack es
  rw [hq, List.nil_append] at hp ⊢
  exact hp.tick_cases.returned_of_streamFrame hf

end

/-- Deliveries without a whole frame, and with a poll left after them, are held (R170). -/
theorem Polling.held_of_deliveries (cs : List (List Byte)) {s : State} (h : Polling s) (hq : s.rxq = [])
    (hlt : s.frElapsed.toNat + cs.length < s.frTimeout.toNat) (hnone : streamFrame (s.frBuf ++ cs.flatten) = none) :
    ∃ t, runEvents (deliveries cs) s = .next t ∧ Held cs.flatten cs.length s t := by
  induction cs generalizing s with
  | nil =>
    exact ⟨_, rfl, h.of_channel s.rxq s.txq s.txlog s.ack [], hq, (List.append_nil _).symm, rfl, rfl, rfl, rfl⟩
  | cons c cs ih =>
    rw [List.flatten_cons, ← List.append_assoc] at hnone
    rw [List.length_cons] at hlt
    have hfirst := h.held_of_delivery hq (deliveries cs) (streamFrame_eq_none_of_append hnone) (by omega)
    obtain ⟨t, ht, hrest⟩ := ih hfirst.polling hfirst.rxq
      (by rw [hfirst.frElapsed, hfirst.frTimeout]; omega) (by rw [hfirst.frBuf]; exact hnone)
    refine ⟨t, (runEvents_deliveries_cons c cs s).trans ht, ?_⟩
    rw [List.flatten_cons, List.length_cons, Nat.add_comm]
    exact hfirst.trans hrest

/-- Deliveries that make the stream's frame whole within the attempt's polls return it, whichever of them completes it
(R170). -/
theorem Polling.returned_of_deliveries (cs : List (List Byte)) {s : State} {f : List Byte} (h : Polling s)
    (hq : s.rxq = []) (hne : cs ≠ []) (hle : s.frElapsed.toNat + cs.length ≤ s.frTimeout.toNat)
    (hf : streamFrame (s.frBuf ++ cs.flatten) = some f) :
    ∃ t, runEvents (deliveries cs) s = .next t ∧ Returned f s.frAttempt t := by
  induction cs generalizing s with
  | nil => exact absurd rfl hne
  | cons c cs ih =>
    rw [List.flatten_cons, ← List.append_assoc] at hf
    rw [List.length_cons] at hle
    rw [runEvents_deliveries_cons]
    cases hc : streamFrame (s.frBuf ++ c) with
    | some g =>
      cases (streamFrame_append hc cs.flatten).symm.trans hf
      obtain ⟨hres, herr, hdone, hbusy, hattempts, hst, hbuf⟩ := h.returned_of_delivery hq (deliveries cs) hc
      obtain ⟨q, hrun⟩ := runEvents_deliveries_of_idle cs hbusy
      exact ⟨_, hrun, hres, herr, hdone, hbusy, hattempts, hst, hbuf⟩
    | none =>
      have hcs : cs ≠ [] := by
        rintro rfl
        rw [List.flatten_nil, List.append_nil, hc] at hf
        cases hf
      have := List.length_pos_iff.2 hcs
      have hfirst := h.held_of_delivery hq (deliveries cs) hc (by omega)
      obtain ⟨t, ht, hret⟩ := ih hfirst.polling hfirst.rxq hcs
        (by rw [hfirst.frElapsed, hfirst.frTimeout]; omega) (by rw [hfirst.frBuf]; exact hf)
      exact ⟨t, ht, hfirst.frAttempt ▸ hret⟩

/-- What stands in RXQ might as well be the beginning of the first chunk (R168). -/
theorem runEvents_deliveries_eq_of_rxq (c : List Byte) (cs : List (List Byte)) (s : State) :
    runEvents (deliveries (c :: cs)) s = runEvents (deliveries ((s.rxq ++ c) :: cs)) { s with rxq := [] } := by
  simp only [runEvents_deliveries_cons, List.nil_append]

section
variable {s : State} (h : AttemptStart s) {cs : List (List Byte)} (hne : cs ≠ [])
include h hne

/-- From the start of an attempt the stream is what RXQ holds and then what PEER delivers (R170). -/
theorem AttemptStart.returned_of_deliveries {f : List Byte} (hle : cs.length ≤ s.frTimeout.toNat)
    (hf : streamFrame (s.rxq ++ cs.flatten) = some f) :
    ∃ t, runEvents (deliveries cs) s = .next t ∧ Returned f s.frAttempt t := by
  obtain ⟨c, cs, rfl⟩ := List.exists_cons_of_ne_nil hne
  rw [runEvents_deliveries_eq_of_rxq]
  have hp := h.polling.of_channel [] s.txq s.txlog s.ack s.inputs
  refine hp.returned_of_deliveries _ rfl (List.cons_ne_nil _ _) ?_ ?_
  · simpa [h.frElapsed] using hle
  · simpa [h.frBuf] using hf

theorem AttemptStart.held_of_deliveries (hlt : cs.length < s.frTimeout.toNat)
    (hnone : streamFrame (s.rxq ++ cs.flatten) = none) :
    ∃ t, runEvents (deliveries cs) s = .next t ∧ Held (s.rxq ++ cs.flatten) cs.length s t := by
  obtain ⟨c, cs, rfl⟩ := List.exists_cons_of_ne_nil hne
  rw [runEvents_deliveries_eq_of_rxq]
  have hp := h.polling.of_channel [] s.txq s.txlog s.ack s.inputs
  obtain ⟨t, ht, hpoll, hrxq, hbuf, helapsed, htimeout, hattempt, hres⟩ :=
    hp.held_of_deliveries ((s.rxq ++ c) :: cs) rfl (by simpa [h.frElapsed] using hlt) (by simpa [h.frBuf] using hnone)
  exact ⟨t, ht, hpoll, hrxq, by simpa using hbuf, helapsed, htimeout, hattempt, hres⟩

end

/-! ### False headers (R173) -/

/-- No legal header begins in these bytes, whatever follows them. -/
def HeaderFree (p : List Byte) : Prop := ∀ q, ∀ j < p.length, headerAt (p ++ q) j = false

theorem HeaderFree.append {p p' : List Byte} (h : HeaderFree p) (h' : HeaderFree p') : HeaderFree (p ++ p') := by
  intro q j hj
  rw [List.append_assoc]
  rcases Nat.lt_or_ge j p.length with hlt | hge
  · exact h _ j hlt
  · obtain ⟨i, rfl⟩ := Nat.exists_eq_add_of_le hge
    have := h' q i (by simpa using hj)
    rwa [← headerAt_drop, List.drop_left]

theorem headerAt_eq_false_of_ne {b : List Byte} {i : Nat} (h : b[i]? ≠ some Config.hdr1) : headerAt b i = false := by
  by_contra hh
  exact h ((headerAt_iff b i).1 (by simpa using hh)).1.1

/-- A header begins with 0x5A. -/
theorem headerFree_of_ne {p : List Byte} (hp : ∀ b ∈ p, b ≠ 0x5A) : HeaderFree p := by
  intro q j hj
  apply headerAt_eq_false_of_ne
  rw [List.getElem?_append_left hj, List.getElem?_eq_getElem hj]
  exact fun h => hp _ (List.getElem_mem hj) (Option.some.inj h)

/-- A header with a length byte below 5 is no legal one, and none begins within it. -/
theorem headerFree_of_short {len : Byte} (h : len.toNat < 5) : HeaderFree [0x5A, 0xA5, len] := by
  intro q j hj
  match j, hj with
  | 0, _ => simp [headerAt, Config.minLen, h]
  | 1, _ => exact headerAt_eq_false_of_ne (by simp [Config.hdr1])
  | 2, _ =>
    refine headerAt_eq_false_of_ne fun hlen => ?_
    cases (Option.some.inj hlen : len = Config.hdr1)
    exact absurd h (by decide)

/-- The frame behind header-free bytes is the one delivered (R170). -/
theorem HeaderFree.streamFrame_append {p f : List Byte} (hp : HeaderFree p) (hf : frameShaped f = true)
    (q : List Byte) : streamFrame (p ++ f ++ q) = some f :=
  Machine.streamFrame_append
    (streamFrame_of_drop (hp f) (by rw [List.drop_left]; exact streamFrame_of_frameShaped hf)) q

/-- Garbage with a length byte of 5 or more has a frame's shape (R169). -/
theorem frameShaped_garbage {len : Byte} {body : List Byte} (h5 : 5 ≤ len.toNat) (hb : body.length = len.toNat) :
    frameShaped (0x5A :: 0xA5 :: len :: body) = true := by
  simp [frameShaped, Config.minLen, Config.hdr1, Config.hdr2, h5, hb]

/-! ### A silent channel (R172) -/

/-- A RECEIVE runs and nothing has arrived. -/
structure Silent (s : State) : Prop where
  polling : Polling s
  frBuf : s.frBuf = []
  rxq : s.rxq = []
  done : s.done = false
  resData : s.resData = []
  attempt : s.frAttempt.toNat ≤ s.frMaxRetry.toNat + 1

/-- A RECEIVE has ended with Timeout after `n` attempts, with no data (R167, R201). -/
structure GaveUp (n : Nat) (t : State) : Prop where
  busy : t.busy = false
  done : t.done = true
  err : t.err = ErrKind.timeout.code
  frState : t.frState = .failed
  resData : t.resData = []
  resAttempts : t.resAttempts.toNat = n

theorem listen_silent {n : U16} (hn : n ≠ 0) (r : Byte) {s : State} (hq : s.rxq = []) : Silent (listen n r s) where
  polling := (listen_attemptStart hn r s).polling
  frBuf := rfl
  rxq := hq
  done := done_listen n r s
  resData := rfl
  attempt := by change 1 ≤ r.toNat + 1; omega

/-- A tick of a silent RECEIVE keeps it so and uses up a poll, or is its last (R167). -/
theorem Silent.tick_cases {s : State} (h : Silent s) (es : List Event) :
    (Silent (tick { s with inputs := es }) ∧ pollsLeft (tick { s with inputs := es }) + 1 = pollsLeft s ∧
        (tick { s with inputs := es }).frMaxRetry = s.frMaxRetry) ∨
      (pollsLeft s = 1 ∧ GaveUp (s.frMaxRetry.toNat + 1) (tick { s with inputs := es })) := by
  have hp := h.polling.of_channel s.rxq s.txq s.txlog s.ack es
  have hc := hp.tick_cases
  generalize tick { s with inputs := es } = t at hc ⊢
  have hpolling := hc.polling hp
  have hleft := hc.pollsLeft hp
  cases hc with
  | returned _ _ hend =>
    rw [h.frBuf, h.rxq, List.append_nil, List.length_nil] at hend
    omega
  | waiting _ _ hp =>
    exact .inl ⟨⟨hp, by simp [searchUpdate, h.frBuf, h.rxq], rfl, h.done, h.resData, h.attempt⟩, hleft hp.busy, rfl⟩
  | retried _ _ hmay =>
    have hattempt : (s.frAttempt + 1).toNat ≤ s.frMaxRetry.toNat + 1 := (toNat_attempt_add_one hmay).trans_le hmay
    exact .inl ⟨⟨hpolling h.polling.busy, rfl, rfl, h.done, h.resData, hattempt⟩, hleft h.polling.busy, rfl⟩
  | timedOut _ hend hlast =>
    refine .inr ⟨?_, busy_fail _, done_fail _, err_fail _, rfl, h.resData, le_antisymm h.attempt hlast⟩
    have hattempts : s.frMaxRetry.toNat + 1 - s.frAttempt.toNat = 0 := Nat.sub_eq_zero_of_le hlast
    have htime : s.frTimeout.toNat - s.frElapsed.toNat = 1 := Nat.sub_eq_of_eq_add' hend.symm
    rw [pollsLeft, hattempts, htime, Nat.zero_mul]

/-- Until the polls left are used up a silent RECEIVE stays BUSY. -/
theorem Silent.busy_of_ticks {k : Nat} {s : State} (h : Silent s) (hk : k < pollsLeft s) :
    ∃ t, runEvents (ticks k) s = .next t ∧ t.busy = true ∧ t.done = false := by
  induction k generalizing s with
  | zero => exact ⟨_, rfl, h.polling.busy, h.done⟩
  | succ k ih =>
    rw [runEvents_ticks_succ]
    rcases h.tick_cases (ticks k) with ⟨hnext, hleft, _⟩ | ⟨hlast, _⟩
    · exact ih hnext (by omega)
    · omega

/-- With the last of the polls left it ends (R172). -/
theorem Silent.gaveUp_of_ticks {k : Nat} {s : State} (h : Silent s) (hk : pollsLeft s = k) :
    ∃ t, runEvents (ticks k) s = .next t ∧ GaveUp (s.frMaxRetry.toNat + 1) t := by
  induction k generalizing s with
  | zero => exact absurd hk h.polling.pollsLeft_pos.ne'
  | succ k ih =>
    rw [runEvents_ticks_succ]
    rcases h.tick_cases (ticks k) with ⟨hnext, hleft, hretry⟩ | ⟨hlast, hend⟩
    · obtain ⟨t, ht, hend⟩ := ih hnext (by omega)
      exact ⟨t, ht, hretry ▸ hend⟩
    · obtain rfl : k = 0 := by omega
      obtain ⟨hbusy, hdone, herr, hst, hres, hattempts⟩ := hend
      exact ⟨_, rfl, hbusy, hdone, herr, hst, hres, hattempts⟩

/-! ### Steps of the other agents -/

/-- While a RECEIVE runs no agent's step but TICK and reset touches it: HOST's commands are rejected (R27, R172). -/
theorem StepEffect.keeps_running {s t : State} (h : StepEffect s t) (hb : s.busy = true)
    (htick : ∀ es, s.inputs ≠ .tick :: es) (hreset : ∀ es, s.inputs ≠ .reset :: es) :
    t.busy = true ∧ pollsLeft t = pollsLeft s := by
  cases h with
  | command _ _ hc =>
    cases hc with
    | rejected => exact ⟨hb, rfl⟩
    | answered hidle | sent hidle | listening hidle => exact absurd hb (Bool.eq_false_iff.1 hidle)
  | tickIdle hi | poll hi => exact absurd hi (htick _)
  | reset hi => exact absurd hi (hreset _)
  | _ => exact ⟨hb, rfl⟩

end Sys2Proof.Machine

/-! # Bounded storage (42_frame_receiver.md R171) -/

namespace Sys2Proof.Machine

/-! ### Where a search that is done stands is told by its buffer alone -/

/-- Where a search stands that is done and has found a header at `off`: it awaits the length byte, or the rest of the
frame, or has all of it (R165). -/
def StandsAt (s : State) (off : Nat) : Prop :=
  match s.frBuf[off + 2]? with
  | none => s.frState = .headerFoundAwaitingLength
  | some len =>
    s.frLen = len ∧ s.frState = if off + 3 + len.toNat ≤ s.frBuf.length then .complete else .accumulatingBody

/-- Below the first legal header each header is short. -/
theorem shortAt_of_lt_firstHeader {b : List Byte} {i j : Nat} (h : firstHeader b = some i) (hj : j < i) :
    ShortAt b j := by
  obtain ⟨hi, hlt⟩ := firstHeader_eq_some.1 h
  have := headerAt_lt hi
  simpa using shortAt_append (q := []) (hlt j hj) (by omega)

theorem not_shortAt_of_firstHeader {b : List Byte} {i : Nat} (h : firstHeader b = some i) : ¬ShortAt b i :=
  fun hs => by simpa [hs.not_headerAt] using (firstHeader_eq_some.1 h).1

/-- A search is done where every header is short, or at the first header that is not (R165). -/
theorem SearchDone.cases {s : State} (h : SearchDone s) :
    (s.frState = .searchingHeader ∧ ∀ j, ShortAt s.frBuf j) ∨
      (s.frState ≠ .searchingHeader ∧ (∀ j < s.frOff, ShortAt s.frBuf j) ∧ ¬ShortAt s.frBuf s.frOff ∧
        StandsAt s s.frOff) := by
  unfold SearchDone at h
  split at h <;> rename_i hs
  case h_1 => exact .inl ⟨hs, h.1⟩
  case h_2 =>
    obtain ⟨hshort, hpair, hend⟩ := h
    have hnone : s.frBuf[s.frOff + 2]? = none := List.getElem?_eq_none hend.ge
    refine .inr ⟨by simp [hs], hshort, fun hopen => ?_, by simp [StandsAt, hnone, hs]⟩
    obtain ⟨_, hlen, _⟩ := hopen hpair
    cases hnone.symm.trans hlen
  case h_3 =>
    obtain ⟨hfirst, hlen, hend⟩ := h
    exact .inr ⟨by simp [hs], fun _ => shortAt_of_lt_firstHeader hfirst, not_shortAt_of_firstHeader hfirst,
      by simpa [StandsAt, hlen, hs, frameEnd] using hend⟩
  case h_4 =>
    obtain ⟨hfirst, hlen, hend⟩ := h
    exact .inr ⟨by simp [hs], fun _ => shortAt_of_lt_firstHeader hfirst, not_shortAt_of_firstHeader hfirst,
      by simpa [StandsAt, hlen, hs, frameEnd] using hend⟩
  all_goals exact h.elim

/-- The state without the first `d` bytes of FR_BUF and with other search registers. -/
def dropped (d scan off : Nat) (len : Byte) (st : FrState) (u : State) : State :=
  searchUpdate { u with frBuf := u.frBuf.drop d } scan off len st

section
variable {u : State} {d scan off : Nat} {len : Byte} {st : FrState} (hu : SearchDone u)
  (hv : SearchDone (dropped d scan off len st u)) (hshort : ∀ j < d, ShortAt u.frBuf j)
include hu hv hshort

/-- Two searches of one stream, one of them without bytes before which each header is short, stand at the same place. -/
theorem SearchDone.stand_together :
    (u.frState = .searchingHeader ∧ st = .searchingHeader) ∨
      (u.frState ≠ .searchingHeader ∧ u.frOff = d + off ∧ StandsAt u (d + off) ∧
        StandsAt (dropped d scan off len st u) off) := by
  rcases hu.cases with ⟨hs, hall⟩ | ⟨hs, hlt, hopen, hstand⟩ <;>
    rcases hv.cases with ⟨hs', hall'⟩ | ⟨hs', hlt', hopen', hstand'⟩
  · exact .inl ⟨hs, hs'⟩
  · exact absurd (shortAt_drop.2 (hall _)) hopen'
  · obtain ⟨i, hi⟩ := Nat.exists_eq_add_of_le (Nat.not_lt.1 fun h => hopen (hshort _ h))
    exact absurd (hi ▸ shortAt_drop.1 (hall' i)) hopen
  · obtain ⟨i, hi⟩ := Nat.exists_eq_add_of_le (Nat.not_lt.1 fun h => hopen (hshort _ h))
    rw [hi] at hlt hopen hstand
    have hoff : i = off := by
      rcases Nat.lt_trichotomy i off with hio | hio | hio
      · exact absurd (shortAt_drop.1 (hlt' i hio)) hopen
      · exact hio
      · exact absurd (shortAt_drop.2 (hlt (d + off) (Nat.add_lt_add_left hio d))) hopen'
    subst hoff
    exact .inr ⟨hs, hi, hstand, hstand'⟩

/-- So they are in the same state, at the same header, with the same length byte if it is there. -/
theorem SearchDone.same_place (hd : d ≤ u.frBuf.length) :
    st = u.frState ∧ (st = .searchingHeader ∨
      u.frOff = d + off ∧ (st = .headerFoundAwaitingLength ∨ len = u.frLen)) := by
  rcases hu.stand_together hv hshort with ⟨hs, hs'⟩ | ⟨_, hoff, hstand, hstand'⟩
  · exact ⟨hs'.trans hs.symm, .inl hs'⟩
  · simp only [StandsAt, dropped, searchUpdate, List.getElem?_drop, List.length_drop, ← Nat.add_assoc] at hstand hstand'
    cases hl : u.frBuf[d + off + 2]? with
    | none =>
      rw [hl] at hstand hstand'
      exact ⟨hstand'.trans hstand.symm, .inr ⟨hoff, .inl hstand'⟩⟩
    | some l =>
      rw [hl] at hstand hstand'
      have hfit : off + 3 + l.toNat ≤ u.frBuf.length - d ↔ d + off + 3 + l.toNat ≤ u.frBuf.length := by omega
      simp only [hfit] at hstand'
      exact ⟨hstand'.2.trans hstand.2.symm, .inr ⟨hoff, .inr (hstand'.1.trans hstand.1.symm)⟩⟩

end

/-! ### What is kept (R171) -/

/-- The bytes that R171 keeps. -/
def keptBuf (s : State) : List Byte :=
  match s.frState with
  | .searchingHeader => s.frBuf.drop (s.frBuf.length - 1)
  | .headerFoundAwaitingLength => s.frBuf.drop s.frOff
  | .accumulatingBody => (s.frBuf.drop s.frOff).take (3 + s.frLen.toNat)
  | _ => []

/-- The length byte that R171 keeps: that of the frame being accumulated. -/
def keptLen (s : State) : Byte :=
  match s.frState with
  | .accumulatingBody => s.frLen
  | _ => 0

/-- Bounded storage differs in FR_BUF and three search registers and in nothing else. -/
theorem compact_eq (s : State) :
    compact s = { s with frBuf := keptBuf s, frScan := 0, frOff := 0, frLen := keptLen s } := by
  unfold compact keptBuf keptLen
  cases s.frState <;> rfl

@[simp] theorem busy_compact (s : State) : (compact s).busy = s.busy := by rw [compact_eq]; rfl

/-- The HOST sees no difference. -/
@[simp] theorem hostView_compact (s : State) : hostView (compact s) = hostView s := by rw [compact_eq]; rfl

/-- What is kept is kept again. -/
theorem compact_compact (s : State) : compact (compact s) = compact s := by
  rw [compact_eq s, compact_eq]
  simp only [keptBuf, keptLen]
  cases s.frState with
  | searchingHeader => simp; omega
  | accumulatingBody => simp
  | _ => rfl

/-- The count of a tick and what follows it read nothing that is not kept, and leave nothing else to be kept (R167). -/
theorem compact_countTime_compact (s : State) : compact (countTime (compact s)) = compact (countTime s) := by
  have hcount : { compact s with frElapsed := (compact s).frElapsed + 1 } =
      compact { s with frElapsed := s.frElapsed + 1 } := by
    rw [compact_eq, compact_eq]
    rfl
  rw [countTime, countTime, hcount]
  generalize ({ s with frElapsed := s.frElapsed + 1 } : State) = c
  have hexpired : expired (compact c) = expired c := by rw [compact_eq]; rfl
  have hmay : mayRetry (compact c) = mayRetry c := by rw [compact_eq]; rfl
  have hretry : retry (compact c) = retry c := by rw [compact_eq]; rfl
  have hfail : compact (fail (compact c)) = compact (fail c) := by rw [compact_eq c]; rfl
  simp only [afterCount, hexpired, hmay, hretry]
  split_ifs
  · rfl
  · exact hfail
  · exact compact_compact c

/-- Outside an attempt nothing is kept. -/
theorem compact_of_ended {s : State} (h : s.frState = .idle ∨ s.frState = .complete ∨ s.frState = .failed) :
    compact s = { s with frBuf := [], frScan := 0, frOff := 0, frLen := 0 } := by
  rcases h with h | h | h <;> simp [compact_eq, keptBuf, keptLen, h]

section
variable {u : State} {d scan off : Nat} {len : Byte} {st : FrState} (hu : SearchDone u)
  (hv : SearchDone (dropped d scan off len st u)) (hshort : ∀ j < d, ShortAt u.frBuf j)
  (hd : d = 0 ∨ d < u.frBuf.length)
include hu hv hshort hd

/-- Two such searches keep the same bytes. -/
theorem SearchDone.keptBuf_eq : keptBuf (dropped d scan off len st u) = keptBuf u := by
  obtain ⟨hst, hplace⟩ := hu.same_place hv hshort (by omega)
  subst hst
  simp only [keptBuf, dropped, searchUpdate]
  cases hs : u.frState <;> simp only [hs, reduceCtorEq, false_or, true_or, and_true] at hplace ⊢
  case searchingHeader =>
    rw [List.length_drop, List.drop_drop]
    congr 1
    omega
  case headerFoundAwaitingLength => rw [List.drop_drop, hplace]
  case accumulatingBody => rw [List.drop_drop, hplace.1, hplace.2]

theorem SearchDone.keptLen_eq : keptLen (dropped d scan off len st u) = keptLen u := by
  obtain ⟨hst, hplace⟩ := hu.same_place hv hshort (by omega)
  subst hst
  simp only [keptLen, dropped, searchUpdate]
  cases hs : u.frState <;> simp only [hs, reduceCtorEq, false_or] at hplace ⊢
  exact hplace.2

/-- So the whole of what is kept is the same. -/
theorem SearchDone.compact_eq : compact (dropped d scan off len st u) = compact u := by
  have hst := (hu.same_place hv hshort (by omega)).1
  rw [Machine.compact_eq, Machine.compact_eq, hu.keptBuf_eq hv hshort hd, hu.keptLen_eq hv hshort hd, hst]
  rfl

/-- A frame that both have found whole is the same frame. -/
theorem SearchDone.slice_eq (hc : u.frState = .complete) :
    slice (u.frBuf.drop d) off (off + 3 + len.toNat) = slice u.frBuf u.frOff (frameEnd u) := by
  obtain ⟨hst, hplace⟩ := hu.same_place hv hshort (by omega)
  subst hst
  simp only [hc, reduceCtorEq, false_or] at hplace
  rw [frameEnd, hplace.1, hplace.2, Nat.add_assoc, slice_drop, Nat.add_assoc (d + off)]

/-- The rest of the poll keeps the same too (R166, R167). -/
theorem SearchDone.compact_conclude_eq :
    compact (conclude (dropped d scan off len st u)) = compact (conclude u) := by
  have hst := (hu.same_place hv hshort (by omega)).1
  have hcompact := hu.compact_eq hv hshort hd
  have hslice := hu.slice_eq hv hshort hd
  subst hst
  by_cases hc : u.frState = .complete
  · have hcv : (dropped d scan off len u.frState u).frState = .complete := hc
    rw [conclude, conclude, if_pos hc, if_pos hcv, compact_of_ended (s := complete u) (.inr (.inl hc)),
      compact_of_ended (s := complete (dropped d scan off len u.frState u)) (.inr (.inl hc))]
    simp only [complete, State.finish, dropped, searchUpdate, frameEnd] at hslice ⊢
    rw [hslice hc]
  · have hcv : (dropped d scan off len u.frState u).frState ≠ .complete := hc
    rw [conclude, conclude, if_neg hc, if_neg hcv, ← compact_countTime_compact, hcompact, compact_countTime_compact]

end

/-! ### A running RECEIVE in bounded storage -/

/-- Bytes before a header do not matter to it. -/
theorem firstHeader_drop_self {b : List Byte} {i : Nat} (h : firstHeader b = some i) :
    firstHeader (b.drop i) = some 0 :=
  firstHeader_eq_some.2
    ⟨(headerAt_drop b i 0).trans (firstHeader_eq_some.1 h).1, fun _ hj => absurd hj (Nat.not_lt_zero _)⟩

/-- Between polls what is kept is a tail of FR_BUF, each header before it is short, and the search is ready in it. -/
theorem Inv.keptBuf_eq_drop {s : State} (h : Inv s) (hb : s.busy = true) :
    ∃ d, keptBuf s = s.frBuf.drop d ∧ (d = 0 ∨ d < s.frBuf.length) ∧ (∀ j < d, ShortAt (s.frBuf ++ s.rxq) j) ∧
      SearchReady (compact s) := by
  have hready := (h.polling hb).ready.drain
  rcases h.active hb with hs | hs | hs <;> simp only [SearchReady, drain_frState, hs] at hready
  · have hscan := (h.searching hs).1
    refine ⟨s.frBuf.length - 1, by simp only [keptBuf, hs], by omega, hscan ▸ hready.1, ?_⟩
    simp only [compact_eq, SearchReady, hs]
    exact ⟨fun _ hj => absurd hj (Nat.not_lt_zero _), Nat.zero_le _⟩
  · obtain ⟨hend, h0, h1, _⟩ := h.awaiting hs
    have hkept : keptBuf s = s.frBuf.drop s.frOff := by simp only [keptBuf, hs]
    refine ⟨s.frOff, hkept, .inr (by omega), hready.1, ?_⟩
    simp only [compact_eq, SearchReady, hs, hkept]
    exact ⟨fun _ hj => absurd hj (Nat.not_lt_zero _), pairAt_drop.2 ⟨h0, h1⟩⟩
  · obtain ⟨hfirst, hlen, hend⟩ := h.accumulating hs
    have hlt := headerAt_lt (firstHeader_eq_some.1 hfirst).1
    have hkept : keptBuf s = s.frBuf.drop s.frOff := by
      simp only [keptBuf, hs]
      exact List.take_of_length_le (by simp only [List.length_drop, frameEnd] at hend ⊢; omega)
    refine ⟨s.frOff, hkept, .inr (by omega), fun _ => shortAt_of_lt_firstHeader hready.1, ?_⟩
    simp only [compact_eq, SearchReady, hs, hkept, keptLen]
    exact ⟨firstHeader_drop_self hfirst, by rwa [List.getElem?_drop]⟩

theorem Inv.length_keptBuf_le {s : State} (h : Inv s) : (keptBuf s).length ≤ 258 := by
  unfold keptBuf
  split
  · simp; omega
  · next hs =>
    have := (h.awaiting hs).1
    simp; omega
  · have := s.frLen.isLt
    simp; omega
  · exact Nat.zero_le _

/-- A tick in bounded storage leaves what a tick would leave to be kept. -/
theorem Inv.compact_tick_compact {s : State} (h : Inv s) : compact (tick (compact s)) = compact (tick s) := by
  cases hb : s.busy with
  | false => rw [tick_of_idle hb, tick_of_idle (by rw [busy_compact, hb]), compact_compact]
  | true =>
    obtain ⟨d, hkept, hd, hshort, hready⟩ := h.keptBuf_eq_drop hb
    have hp := h.polling hb
    have hpc : Polling (compact s) := ⟨by rw [busy_compact, hb], hready, by rw [compact_eq]; exact hp.elapsed⟩
    obtain ⟨scan, off, len, st, hdone, ht⟩ := hp.tick_eq_conclude
    obtain ⟨scan', off', len', st', hdone', ht'⟩ := hpc.tick_eq_conclude
    have hle : d ≤ s.frBuf.length := by omega
    have hdrop : searched (compact s) scan' off' len' st' =
        dropped d scan' off' len' st' (searched s scan off len st) := by
      rw [compact_eq, hkept]
      simp only [searched, dropped, searchUpdate, drain, rxDrain, List.drop_append_of_le_length hle]
    rw [hdrop] at hdone' ht'
    rw [ht, ht']
    exact hdone.compact_conclude_eq hdone' hshort (hd.imp_right fun hlt => by
      change d < (s.frBuf ++ s.rxq).length
      rw [List.length_append]
      omega)

end Sys2Proof.Machine

/-! # The obligations on the frame receiver -/

namespace Sys2Proof.Proofs

open Machine

/-- Settles O13: a tick polls only while BUSY. -/
theorem idleTickChangesNothing : Obligations.IdleTickChangesNothing := by
  unfold Obligations.IdleTickChangesNothing
  intro s es hb hi
  rw [step_tick hi, tick_of_idle (s := { s with inputs := es }) hb]

/-- Settles O32: in every state the loop has at most as many turns left as the model allows it. -/
theorem advanceEndsByItself : Obligations.AdvanceEndsByItself := by
  unfold Obligations.AdvanceEndsByItself
  intro s n hn
  exact advanceLoop_eq_of_turnsLeft_le ((turnsLeft_le s).trans hn) (turnsLeft_le s)

/-- Settles O31: an answer for T = 0, the start of an attempt otherwise. -/
theorem receiveStartsTheFirstAttempt : Obligations.ReceiveStartsTheFirstAttempt := by
  unfold Obligations.ReceiveStartsTheFirstAttempt
  intro s n r hb
  refine ⟨rfl, ?_⟩
  by_cases hn : n = 0
  · subst hn
    exact ⟨_, exec_receive_of_zero hb r, answer_sameChannel .., answer_response .., rfl, rfl, rfl,
      (answer_finishedWith ..).reserved, fun _ => ⟨answer_finishedWith .., answer_sameReceiver ..⟩,
      fun h => absurd rfl h⟩
  · exact ⟨_, exec_receive_of_ne hb hn r, ⟨rfl, rfl, rfl⟩, listen_response n r s, rfl, rfl, rfl,
      statusReserved_listen n r s, fun h => absurd h hn, fun _ => ⟨listen_attemptStart hn r s, done_listen n r s,
      err_listen n r s, rfl, rfl, rfl, rfl, rfl⟩⟩

/-- Settles O33: of the four ends of a poll only completion has a whole frame in its stream. -/
theorem tickReturnsTheCompletedFrame : Obligations.TickReturnsTheCompletedFrame := by
  unfold Obligations.TickReturnsTheCompletedFrame
  intro s f es h hb hi hf
  have hp := (h.polling hb).of_channel s.rxq s.txq s.txlog s.ack es
  refine ⟨_, step_tick hi, ?_⟩
  have hc := hp.tick_cases
  generalize tick { s with inputs := es } = t at hc ⊢
  have hret := hc.returned_of_streamFrame hf
  cases hc with
  | returned hfirst _ hend =>
    refine ⟨⟨rfl, rfl, hret.resData, rfl⟩, hret.err, hret.done, hret.busy, (complete_samePollFrame _).reserved, rfl,
      rfl, rfl, rfl, rfl, hfirst, ?_, rfl, rfl, rfl, rfl, rfl, rfl, rfl⟩
    rw [← hret.resData]
    exact length_slice_frame hend
  | waiting hnone | retried hnone | timedOut hnone => cases hf.symm.trans hnone

/-- Settles O34: of the four ends of a poll one returns a frame, and the other three are told by the time and the
attempts left. -/
theorem tickWithoutAFrameCountsTime : Obligations.TickWithoutAFrameCountsTime := by
  unfold Obligations.TickWithoutAFrameCountsTime
  intro s es h hb hi hnone
  have hp := (h.polling hb).of_channel s.rxq s.txq s.txlog s.ack es
  refine ⟨_, step_tick hi, ?_⟩
  have hc := hp.tick_cases
  generalize tick { s with inputs := es } = t at hc ⊢
  cases hc with
  | returned hfirst hlen hend =>
    cases (streamFrame_eq_some_iff.2 ⟨_, _, hfirst, hlen, hend, rfl⟩).symm.trans hnone
  | waiting _ hlt hnext =>
    refine ⟨⟨rfl, rfl, rfl⟩, rfl, rfl, rfl, rfl, rfl, rfl, rfl, rfl, rfl,
      fun _ => ⟨rfl, hp.toNat_elapsed_add_one, rfl, rfl, rfl, hb, hnext.ready.frState_cases⟩,
      fun hend => ?_, fun hend => ?_⟩
    · exact absurd hend hlt.ne
    · exact absurd hend hlt.ne
  | retried _ hend hmay =>
    have htimeout : s.frTimeout ≠ 0 := fun h0 => by simp [h0] at hend
    refine ⟨⟨rfl, rfl, rfl⟩, rfl, rfl, rfl, rfl, rfl, rfl, rfl, rfl, rfl, fun hlt => ?_,
      fun _ _ => ⟨⟨hb, rfl, rfl, rfl, rfl, htimeout⟩, rfl, rfl, rfl, toNat_attempt_add_one hmay, rfl⟩,
      fun _ hlast => ?_⟩
    · exact absurd hend hlt.ne
    · exact absurd hlast hmay.ne
  | timedOut _ hend hlast =>
    have helapsed : s.frElapsed + 1 = s.frTimeout := BitVec.eq_of_toNat_eq (hp.toNat_elapsed_add_one.trans hend)
    refine ⟨⟨rfl, rfl, rfl⟩, rfl, rfl, rfl, rfl, rfl, rfl, rfl, rfl, (fail_samePollFrame _).reserved, fun hlt => ?_,
      fun _ hmay => ?_, fun _ h1 => ⟨busy_fail _, done_fail _, err_fail _, rfl, rfl, helapsed, rfl, h1⟩⟩
    · exact absurd hend hlt.ne
    · exact absurd hlast (Nat.not_le.2 hmay)

/-- Settles O35: each delivery's poll returns the frame once the stream has it whole, and otherwise holds the stream. -/
theorem receivedFrameDependsOnlyOnTheStream : Obligations.ReceivedFrameDependsOnlyOnTheStream := by
  unfold Obligations.ReceivedFrameDependsOnlyOnTheStream
  intro s chunks h hne
  constructor
  · intro f hle hf
    obtain ⟨t, ht, hret⟩ := h.returned_of_deliveries hne hle hf
    exact ⟨t, ht, hret.resData, hret.err, hret.done, hret.busy, hret.resAttempts, hret.frState⟩
  · intro hlt hnone
    obtain ⟨t, ht, hheld⟩ := h.held_of_deliveries hne hlt hnone
    refine ⟨t, ht, hheld.polling.busy, ?_, hheld.rxq, ?_, hheld.frAttempt, hheld.resData⟩
    · rw [hheld.frBuf, h.frBuf, List.nil_append]
    · rw [hheld.frElapsed, h.frElapsed]
      exact Nat.zero_add _

/-- Settles O36: the bytes around a false header, and the false header itself, are free of legal headers, so the
stream's frame is the one behind them. -/
theorem falseHeadersAreSkipped : Obligations.FalseHeadersAreSkipped := by
  unfold Obligations.FalseHeadersAreSkipped
  intro s pre mid f post len h hq hpre hmid hf
  have hT : 1 ≤ s.frTimeout.toNat := Nat.zero_lt_of_lt h.polling.elapsed
  have returns (cs : List (List Byte)) {g : List Byte} (hne : cs ≠ []) (hle : cs.length ≤ s.frTimeout.toNat)
      (hg : streamFrame cs.flatten = some g) :
      ∃ t, runEvents (deliveries cs) s = .next t ∧ t.resData = g ∧ t.done = true ∧ t.err = ErrKind.ok.code := by
    obtain ⟨t, ht, hret⟩ := h.returned_of_deliveries hne hle (by rwa [hq])
    exact ⟨t, ht, hret.resData, hret.done, hret.err⟩
  refine ⟨fun hshort => ?_, fun body h5 hbody => ?_⟩
  · have hfree := ((headerFree_of_ne hpre).append (headerFree_of_short hshort)).append (headerFree_of_ne hmid)
    have hstream := hfree.streamFrame_append hf post
    exact ⟨returns _ (List.cons_ne_nil _ _) hT (by simpa using hstream),
      fun hT2 => returns _ (List.cons_ne_nil _ _) hT2 (by simpa using hstream)⟩
  · have hstream := (headerFree_of_ne hpre).streamFrame_append (frameShaped_garbage h5 hbody) post
    exact returns _ (List.cons_ne_nil _ _) hT (by simpa using hstream)

/-- Settles O37: header, length byte and body are a frame, and a stream that begins with one delivers it. -/
theorem receiveChecksNeitherOpcodeNorChecksum : Obligations.ReceiveChecksNeitherOpcodeNorChecksum := by
  unfold Obligations.ReceiveChecksNeitherOpcodeNorChecksum
  intro s len body rest h h5 hbody hq
  have hstream : streamFrame (s.frBuf ++ s.rxq) = some (0x5A :: 0xA5 :: len :: body) := by
    rw [h.frBuf, hq]
    exact streamFrame_append (streamFrame_of_frameShaped (frameShaped_garbage h5 hbody)) rest
  have hc := (h.polling.of_channel s.rxq s.txq s.txlog s.ack []).tick_cases
  have hret := hc.returned_of_streamFrame hstream
  exact ⟨_, runEvents_tick s, hret.resData, hret.err, hret.done, hc.rxq, hret.frBuf⟩

/-- Settles O38: a silent RECEIVE uses up one of its T × (R + 1) polls with each tick and ends with the last. -/
theorem silentReceiveTimesOutExactly : Obligations.SilentReceiveTimesOutExactly := by
  unfold Obligations.SilentReceiveTimesOutExactly
  intro s n r hb hn hq
  have hsilent (es : List Event) : Silent (listen n r { s with inputs := es }) := listen_silent hn r hq
  constructor
  · intro k hk
    rw [runEvents_receive_cons hb hn]
    exact (hsilent _).busy_of_ticks (by rwa [pollsLeft_listen])
  · rw [runEvents_receive_cons hb hn]
    obtain ⟨t, ht, hend⟩ := (hsilent _).gaveUp_of_ticks (pollsLeft_listen n r _)
    exact ⟨t, ht, hend.busy, hend.done, hend.err, hend.frState, hend.resData, hend.resAttempts⟩

/-- Settles O39: `pollsLeft` is n × (r + 1) at acceptance, and only polls, which count it down, and reset touch it. -/
theorem everyTickUsesUpOnePoll : Obligations.EveryTickUsesUpOnePoll := by
  unfold Obligations.EveryTickUsesUpOnePoll
  constructor
  · intro s t n r hb hn h
    cases (exec_receive_of_ne hb hn r).symm.trans h
    exact pollsLeft_listen n r s
  · intro s t e es h hb hi he hs
    refine ⟨(h.polling hb).pollsLeft_pos, ?_, fun hne => ?_⟩
    · rintro rfl
      cases (step_tick hi).symm.trans hs
      have hp := (h.polling hb).of_channel s.rxq s.txq s.txlog s.ack es
      cases hbt : (tick { s with inputs := es }).busy with
      | false => exact .inl rfl
      | true =>
        have hleft := hp.tick_cases.pollsLeft hp hbt
        exact .inr hleft
    · refine (step_effect hs).keeps_running hb (fun es' hi' => ?_) (fun es' hi' => ?_)
      · cases hi.symm.trans hi'; exact hne rfl
      · cases hi.symm.trans hi'; exact he rfl

/-- Settles O40: the bytes that are not kept are before the header that the search stands at, or is yet to find, and
each header in them is short, so the search goes on in the same way without them. -/
theorem boundedStorageGivesTheSameResults : Obligations.BoundedStorageGivesTheSameResults := by
  unfold Obligations.BoundedStorageGivesTheSameResults
  intro s h
  have htick := h.compact_tick_compact
  refine ⟨?_, hostView_compact s, ?_, htick⟩
  · rw [compact_eq]
    exact h.length_keptBuf_le
  · rw [← hostView_compact, htick, hostView_compact]

end Sys2Proof.Proofs

/-! # The obligation on the exceptions -/

namespace Sys2Proof.Proofs

open Machine

/-- Settles O43: a command is accepted or rejected by `issue`, which goes on either way (R27, R200), and a wire frame
joins RXQ. -/
theorem everyInstructionHasANextState : Obligations.EveryInstructionHasANextState := by
  unfold Obligations.EveryInstructionHasANextState
  exact exists_exec_eq_next

end Sys2Proof.Proofs

/-! # What a reset step leaves (70_reset_and_hazards.md R230, R231) -/

namespace Sys2Proof.Machine

theorem step_reset {s : State} {es : List Event} (hi : s.inputs = .reset :: es) :
    step s = .next (warmReset { s with inputs := es }) := by
  simp only [step, hi, fetch, perform]

/-- What the registers held before makes no difference: they hold what they hold after the first reset (R40). -/
theorem warmReset_sameRegisters (s : State) : SameRegisters State.reset (warmReset s) :=
  ⟨rfl, rfl, ⟨rfl, rfl, rfl, rfl⟩, ⟨rfl, rfl, rfl, rfl, rfl, rfl, rfl, rfl, rfl⟩⟩

/-- Reset leaves the channel alone, and taking the event off `inputs` does not touch it either. -/
theorem warmReset_sameChannel (s : State) (es : List Event) : SameChannel s (warmReset { s with inputs := es }) :=
  ⟨warmReset_rxq _, warmReset_txq _, warmReset_txlog _⟩

end Sys2Proof.Machine

/-! # Reads that ask for the same byte count (R132, R241) -/

namespace Sys2Proof.Machine

/-- Twice 128 is lost in the ninth bit, so the byte count is that of no word at all (D11). -/
theorem byteCount_128_eq_byteCount_0 : byteCount 128 = byteCount 0 := by decide

/-- A read frame names its words by their byte count alone, so two reads in range with the same byte count do the same:
both are rejected while BUSY, and otherwise both answer the one frame (R27, R132). -/
theorem exec_buildRead_congr (s : State) (a : U16) {v w : Byte} (hv : v.toNat ≤ 128) (hw : w.toNat ≤ 128)
    (hbc : byteCount v = byteCount w) : exec (.buildRead a v) s = exec (.buildRead a w) s := by
  have hframe : readFrame a v = readFrame a w := by rw [readFrame_eq, readFrame_eq, hbc]
  cases hb : s.busy with
  | true => rw [exec_of_busy rfl hb, exec_of_busy rfl hb]
  | false => rw [exec_buildRead_eq_answer hb a hv, exec_buildRead_eq_answer hb a hw, hframe]

end Sys2Proof.Machine

/-! # The obligations on reset and the hazards -/

namespace Sys2Proof.Proofs

open Machine

/-- Settles O9: the step is `warmReset`, which takes each register from `State.reset` and the channel from the state. -/
theorem resetSetsEveryRegisterAndKeepsTheChannel : Obligations.ResetSetsEveryRegisterAndKeepsTheChannel := by
  unfold Obligations.ResetSetsEveryRegisterAndKeepsTheChannel
  intro s es hi
  exact ⟨_, step_reset hi, warmReset_sameRegisters _, warmReset_sameChannel s es, warmReset_inputs _,
    warmReset_status _, warmReset_cur _, warmReset_frState _, busy_warmReset _⟩

/-- Settles O10: reset does the same whether a RECEIVE runs or not, so the RECEIVE is gone with its buffer. -/
theorem resetAbandonsAReceive : Obligations.ResetAbandonsAReceive := by
  unfold Obligations.ResetAbandonsAReceive
  intro s es _ hi
  exact ⟨_, step_reset hi, warmReset_status _, warmReset_cur _, warmReset_frState _, warmReset_frBuf _,
    warmReset_rxq _, busy_warmReset _⟩

/-- Settles O26: both numbers of words are in range and give the byte count 0. -/
theorem readOf128WordsIsReadOf0Words : Obligations.ReadOf128WordsIsReadOf0Words := by
  unfold Obligations.ReadOf128WordsIsReadOf0Words
  intro s a
  exact exec_buildRead_congr s a (by decide) (by decide) byteCount_128_eq_byteCount_0

end Sys2Proof.Proofs
